-- ==== Sys2Proof/Word.lean ====
section
/-! DEFINITION. The word types of the Fortelion frame protocol engine (00_scope.md R7, R10): a byte, a 16-bit and
a 32-bit value. Byte order, bit fields and sign extension stand in Machine/Operands.lean and Decode.lean. -/

namespace Sys2Proof

/-- An unsigned 8-bit value (R10). -/
abbrev Byte := BitVec 8

/-- A 16-bit value, `u16` of R10. -/
abbrev Half := BitVec 16

/-- A 32-bit value: a request word (R60) or the scalar result register (R24). -/
abbrev Word := BitVec 32

end Sys2Proof
end

