-- ==== Sys2Proof/Syntax.lean ====
section
/-! DEFINITION. The names and terms of the engine: the command catalog (30_encoding.md R62), the 24 named faults
(43_fault_decoder.md R201), the quantities (R66), the 25 operations (R63), the operation request (R60) and what the
outside world can do between two operations (60_exceptions.md R240 to R243, 70_reset_and_hazards.md R250). -/

namespace Sys2Proof

/-- The closed command catalog of 11 commands, in catalog order (30_encoding.md R62). -/
inductive Command where
  | cellVoltage
  | current
  | temperature
  | remainingCapacity
  | designCapacity
  | fullChargeCapacity
  | stateOfHealth
  | failStatus1
  | failStatus2
  /-- `MODULE_INFORMATION`, `MI`: the source's combined-info command (R14, R62). -/
  | moduleInformation
  /-- `SUMMARY`, `SU` (R14, R62). -/
  | summary
  deriving DecidableEq, Repr

/-- The 24 named faults in the source's fixed order, which must not be reordered (43_fault_decoder.md R201). -/
inductive FaultId where
  | overCurrentDischarge65A
  | overCurrentDischarge90A
  | overChargeProtection
  | overCurrentCharge45A
  | overTemperatureDischarge
  | lowVoltage
  | fullyCharged
  | overCurrentDischarge200A
  | overCurrentDischarge110A
  | overCurrentCharge65A
  | overTemperatureCharge
  | cellUnbalance
  | overCharge
  | deepDischarge
  | fuseBlown
  | fetUncontrolled
  | selfTestClockFail
  | romFail
  | registerFail
  | pswRegisterFail
  | stackRegisterFail
  | csRegisterFail
  | esRegisterFail
  | ramDfFail
  deriving DecidableEq, Repr

/-- The three fault-status registers, "distinct registers, not interchangeable" (43_fault_decoder.md R201, R205). -/
inductive FaultRegister where
  | one
  | two
  | three
  deriving DecidableEq, Repr

/-- The quantities of the field extractor, in quantity-id order (30_encoding.md R66). -/
inductive Quantity where
  | cellVoltages
  | current
  | temperature
  | remainingCapacity
  | designCapacity
  | fullChargeCapacity
  | absoluteSoc
  | relativeSoc
  | stateOfHealth
  | moduleVoltage
  | failStatus1
  | failStatus2
  | failStatus3
  deriving DecidableEq, Repr

/-- The operand stream of a request (30_encoding.md R60, R61): a finite byte sequence, or the failure marker `FAIL`
that only a `RECEIVE` carries. A request without a stream has the empty byte sequence (notes/assumptions/6.md). -/
inductive Stream where
  | bytes (bs : List Byte)
  | fail
  deriving DecidableEq, Repr

/-- The agent tag of a request (30_encoding.md R60; 00_scope.md R16). -/
inductive Agent where
  | host
  | transport
  deriving DecidableEq, Repr

/-- An operation request: the 32-bit word `W`, the operand stream `S` and the agent tag (30_encoding.md R60). -/
structure Request where
  agent : Agent
  word : Word
  stream : Stream
  deriving DecidableEq, Repr

/-- The 25 operations, one constructor per row of opcode_table.json, in the table's order, with their operands
(30_encoding.md R63, R67, R72). An operand stream is part of the operation, as it is in the syntax of R72. -/
inductive Instr where
  /-- `CKSUM {b0, b1, ...}` (R101). -/
  | cksum (stream : List Byte)
  /-- `CMD_INFO <command>` (R103). -/
  | cmdInfo (cmd : Command)
  /-- `BUILD <command>` (R104). -/
  | build (cmd : Command)
  /-- `FRAME_NEW <command>` (R120). -/
  | frameNew (cmd : Command)
  /-- `FB_WRITE <index>, <byte>` (R121); the index is a 9-bit field (R67). -/
  | fbWrite (index : Nat) (byte : Byte)
  /-- `FB_READ <index>` (R122). -/
  | fbRead (index : Nat)
  /-- `RECEIVE {b0, ...}` or `RECEIVE FAIL` (R123). -/
  | receive (stream : Stream)
  /-- `VALIDATE` (R125). -/
  | validate
  /-- `PAYLOAD` (R127). -/
  | payload
  /-- `GET_CELL_VOLTAGES` (R160). -/
  | getCellVoltages
  /-- `GET_CURRENT` (R161). -/
  | getCurrent
  /-- `GET_TEMPERATURE` (R162). -/
  | getTemperature
  /-- `GET_REMAINING_CAPACITY` (R163). -/
  | getRemainingCapacity
  /-- `GET_DESIGN_CAPACITY` (R164). -/
  | getDesignCapacity
  /-- `GET_FULL_CHARGE_CAPACITY` (R165). -/
  | getFullChargeCapacity
  /-- `GET_ABSOLUTE_SOC` (R166). -/
  | getAbsoluteSoc
  /-- `GET_RELATIVE_SOC` (R167). -/
  | getRelativeSoc
  /-- `GET_STATE_OF_HEALTH` (R168). -/
  | getStateOfHealth
  /-- `GET_MODULE_VOLTAGE` (R169). -/
  | getModuleVoltage
  /-- `GET_FAIL_STATUS_1` (R170). -/
  | getFailStatus1
  /-- `GET_FAIL_STATUS_2` (R171). -/
  | getFailStatus2
  /-- `GET_FAIL_STATUS_3` (R172). -/
  | getFailStatus3
  /-- `FAULT_DECODE <fault>, <byte>` (R202). -/
  | faultDecode (fault : FaultId) (byte : Byte)
  /-- `FAULT_BY_NAME <fault>` (R203). -/
  | faultByName (fault : FaultId)
  /-- `FAULT_ITER` (R204). -/
  | faultIter
  deriving DecidableEq, Repr

/-- What the outside world does between two operations (20_memory.md R49): a request of the host or the transport
(R60), the transport's `SEND` and `OPEN` with their outcome (60_exceptions.md R240, R242), and the reset line
(70_reset_and_hazards.md R250). The model's own type: the spec gives these four and no encoding of them. -/
inductive Input where
  | request (r : Request)
  | transportSend (succeeds : Bool)
  | transportOpen (succeeds : Bool)
  | reset
  deriving DecidableEq, Repr

end Sys2Proof
end

