-- ==== Sys2Proof/WellFormed.lean ====
section
/-! DEFINITION. What a term must satisfy beyond its type to be encodable: an `INDEX` operand fits its 9-bit field
(30_encoding.md R67), and a request carries a stream only where its format has one (R60, R61). Every other operand
is held by its type: a `Command` is one of 11, a `FaultId` one of 24, a `Byte` has 8 bits. -/

namespace Sys2Proof

/-- The exclusive bound of a 9-bit `INDEX` operand (30_encoding.md R67: "9 bits, 0..511"). -/
def indexBound : Nat := 512

/-- The operands fit the fields of the operation's format (30_encoding.md R61, R67). -/
def Instr.wellFormed : Instr → Bool
  | .cksum _ => true
  | .cmdInfo _ => true
  | .build _ => true
  | .frameNew _ => true
  | .fbWrite index _ => decide (index < indexBound)
  | .fbRead index => decide (index < indexBound)
  | .receive _ => true
  | .validate => true
  | .payload => true
  | .getCellVoltages => true
  | .getCurrent => true
  | .getTemperature => true
  | .getRemainingCapacity => true
  | .getDesignCapacity => true
  | .getFullChargeCapacity => true
  | .getAbsoluteSoc => true
  | .getRelativeSoc => true
  | .getStateOfHealth => true
  | .getModuleVoltage => true
  | .getFailStatus1 => true
  | .getFailStatus2 => true
  | .getFailStatus3 => true
  | .faultDecode _ _ => true
  | .faultByName _ => true
  | .faultIter => true

/-- "Only formats S and RX carry" an operand stream (30_encoding.md R60), and `FAIL` stands in format RX alone
(R61): OP 0x01 is `CKSUM`, OP 0x13 is `RECEIVE` (R63). -/
def Request.wellFormed (r : Request) : Bool :=
  match r.stream with
  | .bytes [] => true
  | .bytes (_ :: _) => r.word.setWidth 8 == 0x01#8 || r.word.setWidth 8 == 0x13#8
  | .fail => r.word.setWidth 8 == 0x13#8

end Sys2Proof
end

