-- ==== Sys2Proof/Decode.lean ====
section
/-! DEFINITION. The request encoding (30_encoding.md): catalog indices (R62), fault ids (43_fault_decoder.md R201),
quantity ids (R66), operation codes and formats (R61, R63), the decoder in the order of R64, the encoder, and the
host's entry `decodeTableWord`. The decoder is total on any request and rejects by name. -/

namespace Sys2Proof

/-! ## Numbers of the enumerations -/

/-- The catalog index of a command (30_encoding.md R62). -/
def Command.index : Command → Nat
  | .cellVoltage => 0
  | .current => 1
  | .temperature => 2
  | .remainingCapacity => 3
  | .designCapacity => 4
  | .fullChargeCapacity => 5
  | .stateOfHealth => 6
  | .failStatus1 => 7
  | .failStatus2 => 8
  | .moduleInformation => 9
  | .summary => 10

/-- Every command, in catalog order (30_encoding.md R62). -/
def Command.all : List Command :=
  [.cellVoltage, .current, .temperature, .remainingCapacity, .designCapacity, .fullChargeCapacity, .stateOfHealth,
   .failStatus1, .failStatus2, .moduleInformation, .summary]

/-- The command of a catalog index; the indices 11 to 15 name none (30_encoding.md R64, R65). -/
def Command.ofIndex (n : Nat) : Option Command := Command.all[n]?

/-- Every fault, in fault-id order (43_fault_decoder.md R201). -/
def FaultId.all : List FaultId :=
  [.overCurrentDischarge65A, .overCurrentDischarge90A, .overChargeProtection, .overCurrentCharge45A,
   .overTemperatureDischarge, .lowVoltage, .fullyCharged, .overCurrentDischarge200A,
   .overCurrentDischarge110A, .overCurrentCharge65A, .overTemperatureCharge, .cellUnbalance,
   .overCharge, .deepDischarge, .fuseBlown, .fetUncontrolled,
   .selfTestClockFail, .romFail, .registerFail, .pswRegisterFail,
   .stackRegisterFail, .csRegisterFail, .esRegisterFail, .ramDfFail]

/-- The fault id `FID = 8 * (register - 1) + bit` (43_fault_decoder.md R201). -/
def FaultId.fid : FaultId → Nat
  | .overCurrentDischarge65A => 0
  | .overCurrentDischarge90A => 1
  | .overChargeProtection => 2
  | .overCurrentCharge45A => 3
  | .overTemperatureDischarge => 4
  | .lowVoltage => 5
  | .fullyCharged => 6
  | .overCurrentDischarge200A => 7
  | .overCurrentDischarge110A => 8
  | .overCurrentCharge65A => 9
  | .overTemperatureCharge => 10
  | .cellUnbalance => 11
  | .overCharge => 12
  | .deepDischarge => 13
  | .fuseBlown => 14
  | .fetUncontrolled => 15
  | .selfTestClockFail => 16
  | .romFail => 17
  | .registerFail => 18
  | .pswRegisterFail => 19
  | .stackRegisterFail => 20
  | .csRegisterFail => 21
  | .esRegisterFail => 22
  | .ramDfFail => 23

/-- The fault of a fault id; the ids 24 to 31 name none (30_encoding.md R64, R65). -/
def FaultId.ofFid (n : Nat) : Option FaultId := FaultId.all[n]?

/-- The quantity id: the accessor's OP minus 0x20 (30_encoding.md R66). -/
def Quantity.id : Quantity → Nat
  | .cellVoltages => 0
  | .current => 1
  | .temperature => 2
  | .remainingCapacity => 3
  | .designCapacity => 4
  | .fullChargeCapacity => 5
  | .absoluteSoc => 6
  | .relativeSoc => 7
  | .stateOfHealth => 8
  | .moduleVoltage => 9
  | .failStatus1 => 10
  | .failStatus2 => 11
  | .failStatus3 => 12

/-! ## Formats and operation codes -/

/-- The request-word formats (30_encoding.md R61). -/
inductive Format where
  | n
  | c
  | w
  | r
  | f
  | fb
  | s
  | rx
  deriving DecidableEq, Repr

/-- The must-be-zero bits of a format (30_encoding.md R61). -/
def Format.mustBeZero : Format → Word
  | .n => 0xFFFFFF00
  | .c => 0xFFFFF000
  | .w => 0x00FE0000
  | .r => 0xFFFE0000
  | .f => 0xFFFFE000
  | .fb => 0xFF00E000
  | .s => 0xFFFFFF00
  | .rx => 0xFFFFFF00

/-- The operations without their operands (30_encoding.md R63). -/
inductive Op where
  | cksum
  | cmdInfo
  | build
  | frameNew
  | fbWrite
  | fbRead
  | receive
  | validate
  | payload
  | getCellVoltages
  | getCurrent
  | getTemperature
  | getRemainingCapacity
  | getDesignCapacity
  | getFullChargeCapacity
  | getAbsoluteSoc
  | getRelativeSoc
  | getStateOfHealth
  | getModuleVoltage
  | getFailStatus1
  | getFailStatus2
  | getFailStatus3
  | faultDecode
  | faultByName
  | faultIter
  deriving DecidableEq, Repr

/-- Every operation, in the order of the operation map (30_encoding.md R63). -/
def Op.all : List Op :=
  [.cksum, .cmdInfo, .build, .frameNew, .fbWrite, .fbRead, .receive, .validate, .payload, .getCellVoltages, .getCurrent,
   .getTemperature, .getRemainingCapacity, .getDesignCapacity, .getFullChargeCapacity, .getAbsoluteSoc, .getRelativeSoc,
   .getStateOfHealth, .getModuleVoltage, .getFailStatus1, .getFailStatus2, .getFailStatus3, .faultDecode, .faultByName,
   .faultIter]

/-- The operation map (30_encoding.md R63). -/
def Op.code : Op → Byte
  | .cksum => 0x01
  | .cmdInfo => 0x02
  | .build => 0x03
  | .frameNew => 0x10
  | .fbWrite => 0x11
  | .fbRead => 0x12
  | .receive => 0x13
  | .validate => 0x14
  | .payload => 0x15
  | .getCellVoltages => 0x20
  | .getCurrent => 0x21
  | .getTemperature => 0x22
  | .getRemainingCapacity => 0x23
  | .getDesignCapacity => 0x24
  | .getFullChargeCapacity => 0x25
  | .getAbsoluteSoc => 0x26
  | .getRelativeSoc => 0x27
  | .getStateOfHealth => 0x28
  | .getModuleVoltage => 0x29
  | .getFailStatus1 => 0x2A
  | .getFailStatus2 => 0x2B
  | .getFailStatus3 => 0x2C
  | .faultDecode => 0x30
  | .faultByName => 0x31
  | .faultIter => 0x32

/-- The format of an operation (30_encoding.md R63). -/
def Op.format : Op → Format
  | .cksum => .s
  | .cmdInfo => .c
  | .build => .c
  | .frameNew => .c
  | .fbWrite => .w
  | .fbRead => .r
  | .receive => .rx
  | .validate => .n
  | .payload => .n
  | .getCellVoltages => .n
  | .getCurrent => .n
  | .getTemperature => .n
  | .getRemainingCapacity => .n
  | .getDesignCapacity => .n
  | .getFullChargeCapacity => .n
  | .getAbsoluteSoc => .n
  | .getRelativeSoc => .n
  | .getStateOfHealth => .n
  | .getModuleVoltage => .n
  | .getFailStatus1 => .n
  | .getFailStatus2 => .n
  | .getFailStatus3 => .n
  | .faultDecode => .fb
  | .faultByName => .f
  | .faultIter => .n

/-- The operation of an OP value; every value that R63 does not list is unassigned (30_encoding.md R65). -/
def Op.ofCode (b : Byte) : Option Op := Op.all.find? (fun op => op.code == b)

/-- The operation of an instruction. -/
def Instr.op : Instr → Op
  | .cksum _ => .cksum
  | .cmdInfo _ => .cmdInfo
  | .build _ => .build
  | .frameNew _ => .frameNew
  | .fbWrite _ _ => .fbWrite
  | .fbRead _ => .fbRead
  | .receive _ => .receive
  | .validate => .validate
  | .payload => .payload
  | .getCellVoltages => .getCellVoltages
  | .getCurrent => .getCurrent
  | .getTemperature => .getTemperature
  | .getRemainingCapacity => .getRemainingCapacity
  | .getDesignCapacity => .getDesignCapacity
  | .getFullChargeCapacity => .getFullChargeCapacity
  | .getAbsoluteSoc => .getAbsoluteSoc
  | .getRelativeSoc => .getRelativeSoc
  | .getStateOfHealth => .getStateOfHealth
  | .getModuleVoltage => .getModuleVoltage
  | .getFailStatus1 => .getFailStatus1
  | .getFailStatus2 => .getFailStatus2
  | .getFailStatus3 => .getFailStatus3
  | .faultDecode _ _ => .faultDecode
  | .faultByName _ => .faultByName
  | .faultIter => .faultIter

/-! ## The fields of a request word (30_encoding.md R61, R67) -/

/-- `OP = W[7:0]`. -/
def opField (w : Word) : Byte := w.extractLsb' 0 8

/-- `CMD = W[11:8]`. -/
def cmdField (w : Word) : BitVec 4 := w.extractLsb' 8 4

/-- `INDEX = W[16:8]`. -/
def indexField (w : Word) : BitVec 9 := w.extractLsb' 8 9

/-- `FID = W[12:8]`. -/
def fidField (w : Word) : BitVec 5 := w.extractLsb' 8 5

/-- `BYTE = W[31:24]` of format W. -/
def writeByteField (w : Word) : Byte := w.extractLsb' 24 8

/-- `BYTE = W[23:16]` of format FB. -/
def faultByteField (w : Word) : Byte := w.extractLsb' 16 8

/-! ## The decoder -/

/-- Why a request is no instruction. -/
inductive Reject where
  /-- An unassigned OP, a set must-be-zero bit or a host-tagged `RECEIVE` (30_encoding.md R64 steps 1 to 3): the
  request completes with `ILLEGAL_OP`. -/
  | illegalOp
  /-- CMD at least 11 or FID at least 24 (R64 step 4): the request completes with `ILLEGAL_OPERAND`. -/
  | illegalOperand
  /-- A `CKSUM` whose stream is the marker `FAIL`: R61 gives format S a byte sequence only, and the spec says of no
  such request what it does (notes/assumptions/6.md). -/
  | failMarkerOnCksum
  deriving DecidableEq, Repr

/-- Step 4 of R64 for format C: the command that CMD names. -/
def withCommand (w : Word) (k : Command → Instr) : Except Reject Instr :=
  match Command.ofIndex (cmdField w).toNat with
  | some c => .ok (k c)
  | none => .error .illegalOperand

/-- Step 4 of R64 for formats F and FB: the fault that FID names. -/
def withFault (w : Word) (k : FaultId → Instr) : Except Reject Instr :=
  match FaultId.ofFid (fidField w).toNat with
  | some f => .ok (k f)
  | none => .error .illegalOperand

/-- The operands of an operation whose OP and must-be-zero bits are right (30_encoding.md R61, R64 step 4, R67). -/
def decodeOperands (op : Op) (r : Request) : Except Reject Instr :=
  match op with
  | .cksum =>
    match r.stream with
    | .bytes bs => .ok (.cksum bs)
    | .fail => .error .failMarkerOnCksum
  | .cmdInfo => withCommand r.word .cmdInfo
  | .build => withCommand r.word .build
  | .frameNew => withCommand r.word .frameNew
  | .fbWrite => .ok (.fbWrite (indexField r.word).toNat (writeByteField r.word))
  | .fbRead => .ok (.fbRead (indexField r.word).toNat)
  | .receive => .ok (.receive r.stream)
  | .validate => .ok .validate
  | .payload => .ok .payload
  | .getCellVoltages => .ok .getCellVoltages
  | .getCurrent => .ok .getCurrent
  | .getTemperature => .ok .getTemperature
  | .getRemainingCapacity => .ok .getRemainingCapacity
  | .getDesignCapacity => .ok .getDesignCapacity
  | .getFullChargeCapacity => .ok .getFullChargeCapacity
  | .getAbsoluteSoc => .ok .getAbsoluteSoc
  | .getRelativeSoc => .ok .getRelativeSoc
  | .getStateOfHealth => .ok .getStateOfHealth
  | .getModuleVoltage => .ok .getModuleVoltage
  | .getFailStatus1 => .ok .getFailStatus1
  | .getFailStatus2 => .ok .getFailStatus2
  | .getFailStatus3 => .ok .getFailStatus3
  | .faultDecode => withFault r.word (fun f => .faultDecode f (faultByteField r.word))
  | .faultByName => withFault r.word .faultByName
  | .faultIter => .ok .faultIter

/-- The decode procedure, in the order of 30_encoding.md R64. A request tagged `transport` whose OP is not `RECEIVE`
is decoded as if it came from the host. -/
def decode (r : Request) : Except Reject Instr :=
  match Op.ofCode (opField r.word) with
  | none => .error .illegalOp
  | some op =>
    if r.word &&& op.format.mustBeZero ≠ 0#32 then .error .illegalOp
    else if op = .receive ∧ r.agent = .host then .error .illegalOp
    else decodeOperands op r

/-! ## The encoder -/

/-- Formats N, S and RX: OP alone (30_encoding.md R61). -/
def wordN (op : Op) : Word := 0#24 ++ op.code

/-- Format C: OP and CMD. -/
def wordC (op : Op) (c : Command) : Word := 0#20 ++ BitVec.ofNat 4 c.index ++ op.code

/-- Format W: OP, INDEX and BYTE. -/
def wordW (op : Op) (index : Nat) (byte : Byte) : Word := byte ++ 0#7 ++ BitVec.ofNat 9 index ++ op.code

/-- Format R: OP and INDEX. -/
def wordR (op : Op) (index : Nat) : Word := 0#15 ++ BitVec.ofNat 9 index ++ op.code

/-- Format F: OP and FID. -/
def wordF (op : Op) (f : FaultId) : Word := 0#19 ++ BitVec.ofNat 5 f.fid ++ op.code

/-- Format FB: OP, FID and BYTE. -/
def wordFB (op : Op) (f : FaultId) (byte : Byte) : Word := 0#8 ++ byte ++ 0#3 ++ BitVec.ofNat 5 f.fid ++ op.code

/-- The request word of an instruction (30_encoding.md R61, R63, R67). -/
def encodeWord : Instr → Word
  | .cksum _ => wordN .cksum
  | .cmdInfo c => wordC .cmdInfo c
  | .build c => wordC .build c
  | .frameNew c => wordC .frameNew c
  | .fbWrite i b => wordW .fbWrite i b
  | .fbRead i => wordR .fbRead i
  | .receive _ => wordN .receive
  | .validate => wordN .validate
  | .payload => wordN .payload
  | .getCellVoltages => wordN .getCellVoltages
  | .getCurrent => wordN .getCurrent
  | .getTemperature => wordN .getTemperature
  | .getRemainingCapacity => wordN .getRemainingCapacity
  | .getDesignCapacity => wordN .getDesignCapacity
  | .getFullChargeCapacity => wordN .getFullChargeCapacity
  | .getAbsoluteSoc => wordN .getAbsoluteSoc
  | .getRelativeSoc => wordN .getRelativeSoc
  | .getStateOfHealth => wordN .getStateOfHealth
  | .getModuleVoltage => wordN .getModuleVoltage
  | .getFailStatus1 => wordN .getFailStatus1
  | .getFailStatus2 => wordN .getFailStatus2
  | .getFailStatus3 => wordN .getFailStatus3
  | .faultDecode f b => wordFB .faultDecode f b
  | .faultByName f => wordF .faultByName f
  | .faultIter => wordN .faultIter

/-- The operand stream of an instruction: the empty one where the format carries none (30_encoding.md R60, R61). -/
def encodeStream : Instr → Stream
  | .cksum bs => .bytes bs
  | .receive s => s
  | .cmdInfo _ | .build _ | .frameNew _ | .fbWrite _ _ | .fbRead _ | .validate | .payload | .getCellVoltages | .getCurrent
  | .getTemperature | .getRemainingCapacity | .getDesignCapacity | .getFullChargeCapacity | .getAbsoluteSoc
  | .getRelativeSoc | .getStateOfHealth | .getModuleVoltage | .getFailStatus1 | .getFailStatus2 | .getFailStatus3
  | .faultDecode _ _ | .faultByName _ | .faultIter => .bytes []

/-- The agent that issues an instruction: the transport issues `RECEIVE`, the host everything else
(60_exceptions.md R229, R241). -/
def issuer (op : Op) : Agent := if op = .receive then .transport else .host

/-- The request of an instruction. -/
def encode (i : Instr) : Request :=
  { agent := issuer i.op, word := encodeWord i, stream := encodeStream i }

/-! ## The host's entry -/

/-- The request whose word holds the bits of `w` below `nbits`, with the empty stream, tagged with the agent that
issues its OP (notes/assumptions/17.md). -/
def tableRequest (nbits w : Nat) : Request :=
  let word : Word := BitVec.ofNat 32 (w % 2 ^ nbits)
  { agent := match Op.ofCode (opField word) with
      | some op => issuer op
      | none => .host
    word := word
    stream := .bytes [] }

/-- The instruction the decoder reads from the request word `w` of `nbits` bits; none where it rejects, or where the
bits do not fit the 32-bit request word (30_encoding.md R60). -/
def decodeTableWord (nbits w : Nat) : Option Instr :=
  if w % 2 ^ nbits < 2 ^ 32 then
    match decode (tableRequest nbits w) with
    | .ok i => some i
    | .error _ => none
  else none

end Sys2Proof
end

