-- ==== Sys2Proof/Config.lean ====
section
/-! DEFINITION. The configuration of an engine (00_scope.md R8), the laws an admissible configuration obeys (R9), and
the open values: ONE opaque admissible configuration that the machine runs with, and the opaque free values behind
`draw()` (R13). Nothing in Lean can evaluate an opaque constant or prove which value it has, so whatever is proved of
the machine holds for every admissible configuration and for every drawn value (notes/assumptions/1.md, 2.md). -/

namespace Sys2Proof

/-- `TEMP_DED_SCALE` (00_scope.md R8; 42_field_extractor.md R156). -/
inductive TempScale where
  | tenth
  | unit
  deriving DecidableEq, Repr

/-- `RESULT_OVERFLOW` (00_scope.md R8; 42_field_extractor.md R154). -/
inductive ResultOverflow where
  | exact
  | any
  deriving DecidableEq, Repr

/-- The payload-relative offsets `OFF_MI_*` of the module-information layout (00_scope.md R8). -/
structure MiLayout where
  cellV : Byte
  current : Byte
  temp : Byte
  remCap : Byte
  desCap : Byte
  fcCap : Byte
  soh : Byte
  fs1 : Byte
  fs2 : Byte
  deriving DecidableEq, Repr

/-- The payload-relative offsets `OFF_SU_*` of the summary layout (00_scope.md R8). -/
structure SuLayout where
  current : Byte
  tempMax : Byte
  remCap : Byte
  desCap : Byte
  fcCap : Byte
  absSoc : Byte
  relSoc : Byte
  soh : Byte
  modV : Byte
  fs1 : Byte
  fs2 : Byte
  fs3 : Byte
  deriving DecidableEq, Repr

/-- The configuration parameters of 00_scope.md R8. They are constants of an engine, never state (R29). -/
structure Config where
  /-- `CODE[c]`: the wire code of command `c`. -/
  code : Command → Byte
  /-- `LEN[c]`: the declared response payload length of command `c`. -/
  len : Command → Byte
  /-- `REQLEN[c]`: the command-side payload length of command `c`. -/
  reqLen : Command → Nat
  /-- `CK`: the checksum reduction (40_checksum_builder.md R100). -/
  ck : List Byte → Byte
  /-- `OFF_MI_*`. -/
  mi : MiLayout
  /-- `OFF_SU_*`. -/
  su : SuLayout
  /-- `TEMP_DED_SCALE`. -/
  tempDedScale : TempScale
  /-- `TEMP_SIGNED`. -/
  tempSigned : Bool
  /-- `ABS_SOC_FN`: remaining and design capacity (design not 0) to a percentage (42_field_extractor.md R157). -/
  absSocFn : Nat → Nat → Int
  /-- `RESULT_OVERFLOW`. -/
  resultOverflow : ResultOverflow
  /-- `ACK_TIMEOUT`, a duration of the transport alone: no rule of the block reads it (R8, R231). -/
  ackTimeout : Nat

/-- `flip(s, k)` of 00_scope.md R9 (f): bit `k mod 8` of byte `k div 8` of `s` inverted. -/
def flipBit (s : List Byte) (k : Nat) : List Byte :=
  s.modify (k / 8) (fun b => b ^^^ BitVec.twoPow 8 (k % 8))

/-- The laws an admissible configuration obeys (00_scope.md R9). Law (e), that `CK` is total, deterministic and
pure, is that `Config.ck` is a function. -/
structure Config.Admissible (cfg : Config) : Prop where
  /-- (a) wire code and command are in bijection. -/
  codeInjective : Function.Injective cfg.code
  /-- (b) every declared length is at least 1; at most 255 by its width. -/
  lenPositive : ∀ c, 1 ≤ (cfg.len c).toNat
  /-- (c) the four lengths the source fixes. -/
  lenCellVoltage : cfg.len .cellVoltage = 16#8
  lenCurrent : cfg.len .current = 2#8
  lenTemperature : cfg.len .temperature = 2#8
  lenStateOfHealth : cfg.len .stateOfHealth = 1#8
  /-- (d) every outbound request carries an empty payload. -/
  reqLenZero : ∀ c, cfg.reqLen c = 0
  /-- (f) `CK` detects every single-bit change. -/
  ckFlip : ∀ s k, k < 8 * s.length → cfg.ck (flipBit s k) ≠ cfg.ck s
  /-- (g) 0xFF is not the checksum of the Scenario A frame. -/
  ckScenarioA : cfg.ck [0x02#8, 0x01#8, cfg.code .current, 0x02#8, 0x04#8, 0xD2#8] ≠ 0xFF#8

/-- A configuration together with the proof that it obeys the laws of R9. -/
abbrev AdmissibleConfig := { cfg : Config // cfg.Admissible }

/-- The spec's default for `ABS_SOC_FN`: the exact quotient rounded half up (42_field_extractor.md R157). -/
def Config.absSocDefault (rem des : Nat) : Int :=
  ((200 * rem + des) / (2 * des) : Nat)

/-- Wire codes of the test configuration TC1 (95_test_vectors.md 0.2). -/
def Config.tc1Code : Command → Byte
  | .cellVoltage => 0x40
  | .current => 0x41
  | .temperature => 0x42
  | .remainingCapacity => 0x43
  | .designCapacity => 0x44
  | .fullChargeCapacity => 0x45
  | .stateOfHealth => 0x46
  | .failStatus1 => 0x47
  | .failStatus2 => 0x48
  | .moduleInformation => 0x49
  | .summary => 0x4A

/-- Declared lengths of the test configuration TC1 (95_test_vectors.md 0.2). -/
def Config.tc1Len : Command → Byte
  | .cellVoltage => 16
  | .current => 2
  | .temperature => 2
  | .remainingCapacity => 2
  | .designCapacity => 2
  | .fullChargeCapacity => 2
  | .stateOfHealth => 1
  | .failStatus1 => 1
  | .failStatus2 => 1
  | .moduleInformation => 32
  | .summary => 20

/-- The test configuration TC1 of 95_test_vectors.md 0.2, with an XOR for its symbolic checksum. It serves two ends
only: it witnesses that the laws of R9 can be met together, and the model's own tests run on it. It is not the
device's configuration, and the machine does not run on it (40_checksum_builder.md R100: no XOR for `CK`). -/
def Config.tc1 : Config where
  code := Config.tc1Code
  len := Config.tc1Len
  reqLen := fun _ => 0
  ck := fun s => s.foldr (fun b acc => b ^^^ acc) 0#8
  mi := { cellV := 0, current := 16, temp := 18, remCap := 20, desCap := 22, fcCap := 24, soh := 26, fs1 := 27, fs2 := 28 }
  su := { current := 0, tempMax := 2, remCap := 6, desCap := 8, fcCap := 10, absSoc := 12, relSoc := 13, soh := 14,
          modV := 15, fs1 := 17, fs2 := 18, fs3 := 19 }
  tempDedScale := .tenth
  tempSigned := true
  absSocFn := Config.absSocDefault
  resultOverflow := .exact
  ackTimeout := 0

/-- Inverting bits of one byte inverts them in the XOR of the sequence. -/
theorem Config.tc1_ck_modify (s : List Byte) (i : Nat) (m : Byte) (h : i < s.length) :
    Config.tc1.ck (s.modify i (fun b => b ^^^ m)) = Config.tc1.ck s ^^^ m := by
  induction s generalizing i with
  | nil => simp at h
  | cons b s ih =>
    cases i with
    | zero =>
      simp only [List.modify_zero_cons, Config.tc1, List.foldr_cons]
      rw [BitVec.xor_assoc, BitVec.xor_comm m, ← BitVec.xor_assoc]
    | succ i =>
      have := ih i (by simpa using h)
      simp only [List.modify_succ_cons, Config.tc1, List.foldr_cons] at this ⊢
      rw [this, BitVec.xor_assoc]

/-- The laws of R9 are consistent: TC1 meets them. -/
theorem Config.tc1_admissible : Config.tc1.Admissible where
  codeInjective := by intro a b h; revert h; cases a <;> cases b <;> decide
  lenPositive := by intro c; cases c <;> decide
  lenCellVoltage := rfl
  lenCurrent := rfl
  lenTemperature := rfl
  lenStateOfHealth := rfl
  reqLenZero := fun _ => rfl
  ckFlip := by
    intro s k hk
    have hi : k / 8 < s.length := by omega
    have hb : k % 8 < 8 := by omega
    rw [flipBit, Config.tc1_ck_modify s _ _ hi]
    intro h
    have : BitVec.twoPow 8 (k % 8) = 0#8 := by simpa using congrArg (Config.tc1.ck s ^^^ ·) h
    have := congrArg (·.getLsbD (k % 8)) this
    simp [hb] at this
  ckScenarioA := by decide

/-- Some admissible configuration, opaquely: Lean can prove nothing of it but that it obeys R9. (The argument only
shows the type inhabited, which an opaque constant needs; no proof can unfold the constant to it.) -/
opaque Config.someAdmissible [Inhabited AdmissibleConfig] : AdmissibleConfig

/-- The configuration the machine runs with: open, but for the laws of R9 (00_scope.md R8; notes/assumptions/1.md). -/
def Config.device : Config := (@Config.someAdmissible ⟨⟨Config.tc1, Config.tc1_admissible⟩⟩).val

/-- The machine's configuration obeys every law of 00_scope.md R9. -/
theorem Config.device_admissible : Config.device.Admissible :=
  (@Config.someAdmissible ⟨⟨Config.tc1, Config.tc1_admissible⟩⟩).property

/-- The `n`-th drawn byte: `draw()` of 00_scope.md R13 where a byte is drawn, applied to `State.draws`. -/
opaque Config.freeByte : Nat → Byte

/-- The `n`-th drawn 32-bit value: `draw()` of R13 where `RVAL` is drawn, applied to `State.draws`. -/
opaque Config.freeWord : Nat → Word

end Sys2Proof
end

