-- ==== Sys2Proof/Machine/State.lean ====
section
/-! DEFINITION. The state of the engine as plain data (10_state.md R20 to R31), the machine's fields for the agents
around it, the memory form of the frame buffer, the update of each field, the reasons a step can stop, and the state
after reset. INVENTORY.md lists every field with the rule that names it. -/

namespace Sys2Proof.Machine

/-- The bytes of the frame buffer as pairs of index and byte: indices strictly rising, no entry equal to what an
unlisted index reads as. -/
abbrev Memory := List Host.Cell

/-- What an unlisted index reads as: a frame buffer "is allocated empty (zero-filled)" (10_state.md R22,
41_frame_buffer.md R120), so a byte that nothing has written since reads 0x00. -/
def Memory.unlisted : Byte := 0x00#8

/-- The canonical form: indices strictly rising, and no entry with the unlisted value. -/
def Memory.wf (m : Memory) : Bool :=
  decide (m.Pairwise (fun x y => x.1 < y.1)) && m.all (fun cell => decide (cell.2 ≠ Memory.unlisted))

/-- The result register file (10_state.md R24). -/
structure Results where
  /-- `RSTATUS`: status code of the last completed operation (60_exceptions.md R220). -/
  rstatus : Byte
  /-- `RRULE`: the number of the failed validation rule. -/
  rrule : Byte
  /-- `REXP`: the expected byte. -/
  rexp : Byte
  /-- `RRCV`: the received byte. -/
  rrcv : Byte
  /-- `RACT`: catalog index of the active command. -/
  ract : Byte
  /-- `RVALID`: the set of commands that would have worked. -/
  rvalid : Half
  /-- `RQTY`: quantity id of a shortage or division by zero. -/
  rqty : Byte
  /-- `RNEED`: the payload length the window needs, or the index out of range. -/
  rneed : Half
  /-- `RAVAIL`: the available payload length, or `FLEN`. -/
  ravail : Half
  /-- `RVAL`: scalar result, two's complement where signed. -/
  rval : Word
  /-- `RVEC[0..7]`: cell voltages. -/
  rvec : Vector Half 8
  /-- `RLEN`: number of valid bytes in `RBYTES`. -/
  rlen : Half
  /-- `RBYTES[0..254]`, held as its valid bytes in order; every later byte of the register reads 0
  (`Results.rbyte`; notes/assumptions/11.md). -/
  rbytes : List Byte
  /-- `RFAULT[0..23]`: fault states in fault-id order, encoded as in 43_fault_decoder.md R200. -/
  rfault : Vector (BitVec 2) 24
  deriving DecidableEq, Repr

/-- The result file with every register 0 (10_state.md R25). -/
def Results.cleared : Results where
  rstatus := 0
  rrule := 0
  rexp := 0
  rrcv := 0
  ract := 0
  rvalid := 0
  rqty := 0
  rneed := 0
  ravail := 0
  rval := 0
  rvec := Vector.replicate 8 0
  rlen := 0
  rbytes := []
  rfault := Vector.replicate 24 0

/-- What the machine keeps of the transport agent: none of it is block state (60_exceptions.md R240, R242, R243;
notes/assumptions/7.md). -/
structure Transport where
  /-- The last `OPEN` succeeded (R242; 70_reset_and_hazards.md R251). -/
  opened : Bool
  /-- Status code of the last `OPEN` or `SEND`, which is "not in block state" (R220). -/
  status : Byte
  /-- A command frame was sent and its reply has not been received (70_reset_and_hazards.md R255). -/
  awaiting : Bool
  /-- The command frames sent, newest first (R240). -/
  sent : List (Vector Byte 5)
  deriving DecidableEq, Repr

/-- The state: the block's (10_state.md R20), then the machine's own fields for the agents around it. -/
structure State where
  /-- `EXP`, the expected command; `none` is the value `NONE` (R21). -/
  exp : Option Command
  /-- `FB`, the frame buffer (R22); its length is a function of `EXP` (R23). -/
  fb : Memory
  /-- `TXB[0..4]` (R26). -/
  txb : Vector Byte 5
  /-- `TXV` (R26). -/
  txv : Bool
  /-- The result register file (R24). -/
  res : Results
  /-- The model's own: what is still to come from host, transport and reset line, in the order of issue (R27;
  20_memory.md R49; notes/assumptions/4.md). -/
  inputs : List Input
  /-- The model's own: the transport agent. -/
  transport : Transport
  /-- The model's own: how many free values have been drawn (00_scope.md R13; notes/assumptions/2.md). -/
  draws : Nat
  deriving DecidableEq, Repr

/-! ## The update of each field -/

def State.setExp (s : State) (e : Option Command) : State := { s with exp := e }
def State.setFb (s : State) (m : Memory) : State := { s with fb := m }
def State.setTxb (s : State) (f : Vector Byte 5) : State := { s with txb := f }
def State.setTxv (s : State) (v : Bool) : State := { s with txv := v }
def State.setRes (s : State) (r : Results) : State := { s with res := r }
def State.setInputs (s : State) (is : List Input) : State := { s with inputs := is }
def State.setTransport (s : State) (t : Transport) : State := { s with transport := t }
def State.setDraws (s : State) (n : Nat) : State := { s with draws := n }

/-! ## The reasons a step can stop -/

/-- A step stops with a fault only for the conduct of the agents around the block; the block itself never traps
(60_exceptions.md R225). -/
inductive Fault where
  /-- Raised by a transport `SEND` while `TXV = 0`: "The model treats it as a fault of the host"
  (70_reset_and_hazards.md R256; 93 I12). Safe: the machine stops. -/
  | sendBeforeBuild
  /-- Raised by a transport `SEND` before the reply to the frame sent last has come: "The model has no move in which
  the host interleaves exchanges" (70_reset_and_hazards.md R255; 93 I13, stuck). Safe: the machine stops. -/
  | interleavedExchange
  /-- Raised by a transport `RECEIVE` when the buffer stands allocated for another command than the one whose reply is
  awaited: "builds one command and allocates the buffer for another" is stuck too (93 I13; 70_reset_and_hazards.md R255).
  Safe: the machine stops. -/
  | bufferForAnotherCommand
  deriving DecidableEq, Repr

/-- A request that has no meaning. -/
inductive Refusal where
  /-- An instruction of the opcode table without a meaning. No arm of `exec` gives it: every row is modelled. Safe. -/
  | notModelled (mnemonic : String)
  /-- Raised by the request port for a `CKSUM` whose stream is the marker `FAIL`, which format S does not have
  (30_encoding.md R61; notes/assumptions/6.md). Safe: the machine stops. -/
  | failMarkerOnCksum
  deriving DecidableEq, Repr

/-! ## Reset -/

/-- Five drawn bytes, from draw `n` on (00_scope.md R13). -/
def drawnTxb (n : Nat) : Vector Byte 5 :=
  #v[Config.freeByte n, Config.freeByte (n + 1), Config.freeByte (n + 2), Config.freeByte (n + 3), Config.freeByte (n + 4)]

/-- The result file after reset: `RSTATUS` is `NONE` (0xFF), every other register 0 (10_state.md R31). -/
def Results.reset : Results := { Results.cleared with rstatus := 0xFF#8 }

/-- The transport before it has done anything (notes/assumptions/7.md). -/
def Transport.idle : Transport := { opened := false, status := 0xFF#8, awaiting := false, sent := [] }

/-- The machine right after reset (10_state.md R31; 70_reset_and_hazards.md R250). `TXB` is unspecified there, one
draw per byte: the first five draws. -/
def State.reset : State where
  exp := none
  fb := []
  txb := drawnTxb 0
  txv := false
  res := Results.reset
  inputs := []
  transport := Transport.idle
  draws := 5

end Sys2Proof.Machine
end

