-- ==== Sys2Proof/Machine/Flags.lean ====
section
/-! DEFINITION. Status codes and fault states. The block has no condition flags (10_state.md R28): what other machines
tell by flags it tells by `RSTATUS` (60_exceptions.md R220), by the error fields that each status records (R221), and
by the fault states that a register byte's bits give (43_fault_decoder.md R200, R205). -/

namespace Sys2Proof.Machine

/-- The statuses of 60_exceptions.md R220. -/
inductive Status where
  | ok
  | invalidFrame
  | noAppropriateData
  | dataBytesShortage
  | divideByZero
  | noFrame
  | indexRange
  | buildUnsupported
  | illegalOp
  | illegalOperand
  | openFailed
  | sendFailed
  | receiveFailed
  | none
  deriving DecidableEq, Repr

/-- The status codes (60_exceptions.md R220). -/
def Status.code : Status → Byte
  | .ok => 0x00
  | .invalidFrame => 0x01
  | .noAppropriateData => 0x02
  | .dataBytesShortage => 0x03
  | .divideByZero => 0x04
  | .noFrame => 0x05
  | .indexRange => 0x06
  | .buildUnsupported => 0x07
  | .illegalOp => 0x0E
  | .illegalOperand => 0x0F
  | .openFailed => 0x10
  | .sendFailed => 0x11
  | .receiveFailed => 0x12
  | .none => 0xFF

/-- The errors an operation of the block can raise, with the information each records (60_exceptions.md R220). -/
inductive Err where
  | invalidFrame (rule : Nat) (expected received : Byte)
  | noAppropriateData (active : Command) (valid : Half)
  | dataBytesShortage (q : Quantity) (need avail : Nat)
  | divideByZero (q : Quantity)
  | noFrame
  | indexRange (index frameLen : Nat)
  | buildUnsupported (cmd : Command)
  | illegalOp
  | illegalOperand
  | receiveFailed
  deriving DecidableEq, Repr

/-- The status of an error. -/
def Err.status : Err → Status
  | .invalidFrame _ _ _ => .invalidFrame
  | .noAppropriateData _ _ => .noAppropriateData
  | .dataBytesShortage _ _ _ => .dataBytesShortage
  | .divideByZero _ => .divideByZero
  | .noFrame => .noFrame
  | .indexRange _ _ => .indexRange
  | .buildUnsupported _ => .buildUnsupported
  | .illegalOp => .illegalOp
  | .illegalOperand => .illegalOperand
  | .receiveFailed => .receiveFailed

/-- The result file that holds status `st` and otherwise its cleared values (10_state.md R25; 60_exceptions.md R221). -/
def Results.ofStatus (st : Status) : Results := { Results.cleared with rstatus := st.code }

/-- What `raise S(info)` leaves in the result file: the status, the fields the error names, every other register at
its cleared value (60_exceptions.md R220, R221). -/
def Err.results (e : Err) : Results :=
  let base := Results.ofStatus e.status
  match e with
  | .invalidFrame rule expected received => { base with rrule := BitVec.ofNat 8 rule, rexp := expected, rrcv := received }
  | .noAppropriateData active valid => { base with ract := BitVec.ofNat 8 active.index, rvalid := valid }
  | .dataBytesShortage q need avail =>
    { base with rqty := BitVec.ofNat 8 q.id, rneed := BitVec.ofNat 16 need, ravail := BitVec.ofNat 16 avail }
  | .divideByZero q => { base with rqty := BitVec.ofNat 8 q.id }
  | .noFrame => base
  | .indexRange index frameLen => { base with rneed := BitVec.ofNat 16 index, ravail := BitVec.ofNat 16 frameLen }
  | .buildUnsupported cmd => { base with ract := BitVec.ofNat 8 cmd.index }
  | .illegalOp => base
  | .illegalOperand => base
  | .receiveFailed => base

/-- The cleared result file with status `OK`, before an operation writes its results. -/
def Results.ok : Results := Results.ofStatus .ok

/-- `RBYTES[i]` of the register file: the bytes after the valid ones read 0 (10_state.md R24, R25). -/
def Results.rbyte (r : Results) (i : Nat) : Byte := r.rbytes.getD i 0

/-! ## Fault states -/

/-- The tri-state of 43_fault_decoder.md R200. -/
inductive FaultState where
  | unknown
  | ok
  | ng
  deriving DecidableEq, Repr

/-- The 2-bit code of a fault state; code 3 is never produced (43_fault_decoder.md R200). -/
def FaultState.code : FaultState → BitVec 2
  | .unknown => 0
  | .ok => 1
  | .ng => 2

/-- `state(x, b)`: bit clear gives Ok, bit set gives Ng, bit 0 the least significant (43_fault_decoder.md R205;
00_scope.md R11). -/
def FaultState.ofBit (x : Byte) (b : Nat) : FaultState := if x.getLsbD b then .ng else .ok

/-- The state of a fault bit in a register byte that may be unavailable (43_fault_decoder.md R203, R204). -/
def FaultState.ofByte? (x : Option Byte) (b : Nat) : FaultState :=
  match x with
  | some x => FaultState.ofBit x b
  | none => .unknown

/-- The bit of a fault in its register: `FID mod 8` (43_fault_decoder.md R201). -/
def faultBit (fid : Nat) : Nat := fid % 8

/-- The register of a fault: `FID div 8 + 1` (43_fault_decoder.md R201). -/
def faultRegister (fid : Nat) : FaultRegister :=
  match fid / 8 with
  | 0 => .one
  | 1 => .two
  | _ => .three

end Sys2Proof.Machine
end

