-- ==== Sys2Proof/Machine/Ops.lean ====
section
/-! DEFINITION. The named operations over memory and registers: one byte and runs of bytes of the frame buffer
(10_state.md R22, 20_memory.md R40 to R44), the frame length (R23), completing an operation and raising an error
(60_exceptions.md R221: the block's one form of exception, with no vector, no saved register and no return,
R225, R226), drawing free values (00_scope.md R13), and the frames of the wire formats (20_memory.md R46, R47). -/

namespace Sys2Proof.Machine

/-! ## The frame buffer as memory -/

/-- `FB[i]`: read one byte. -/
def Memory.read : Memory → Nat → Byte
  | [], _ => Memory.unlisted
  | (a, b) :: rest, i => if i = a then b else Memory.read rest i

/-- Put `b` at index `i` and keep the indices rising, whatever `b` is. -/
def Memory.insert : Memory → Nat → Byte → Memory
  | [], i, b => [(i, b)]
  | (a, x) :: rest, i, b =>
    if i < a then (i, b) :: (a, x) :: rest
    else if i = a then (i, b) :: rest
    else (a, x) :: Memory.insert rest i b

/-- `FB[i] <- b`: write one byte; writing the unlisted value removes the entry. -/
def Memory.write (m : Memory) (i : Nat) (b : Byte) : Memory :=
  if b = Memory.unlisted then m.filter (fun cell => decide (cell.1 ≠ i)) else Memory.insert m i b

/-- The zero-filled buffer (41_frame_buffer.md R120): every index reads 0x00. -/
def Memory.zeros : Memory := []

/-- The memory that holds `bs` from index `base` on and reads as unlisted elsewhere (`MemWrite` of 00_scope.md R13 over
a whole frame). -/
def Memory.ofBytes (base : Nat) : List Byte → Memory
  | [] => []
  | b :: bs =>
    if b = Memory.unlisted then Memory.ofBytes (base + 1) bs else (base, b) :: Memory.ofBytes (base + 1) bs

/-- `MemRead(a, n)`: the bytes `FB[a .. a+n)` (00_scope.md R13). -/
def Memory.readBytes (m : Memory) (a : Nat) : Nat → List Byte
  | 0 => []
  | n + 1 => m.read a :: Memory.readBytes m (a + 1) n

/-! ## Lengths and registers -/

/-- `LEN[c]` as a number. -/
def payloadLen (cfg : Config) (c : Command) : Nat := (cfg.len c).toNat

/-- `FLEN` of a buffer allocated for `c`: `6 + LEN[c]` (10_state.md R23). -/
def frameLen (cfg : Config) (c : Command) : Nat := 6 + payloadLen cfg c

/-- `FLEN`, a function of `EXP` (10_state.md R23). -/
def State.flen (cfg : Config) (s : State) : Nat :=
  match s.exp with
  | some c => frameLen cfg c
  | none => 0

/-- The 4-bit register `EXP`: a catalog index, or `NONE`, 0xF (10_state.md R21). -/
def State.expReg (s : State) : BitVec 4 :=
  match s.exp with
  | some c => BitVec.ofNat 4 c.index
  | none => 0xF#4

/-! ## Completing an operation -/

/-- `complete`: the operation ends with its results in the cleared result file (10_state.md R25; 00_scope.md R13). -/
def complete (r : Results) (s : State) : State := s.setRes r

/-- `raise S(info)`: the operation ends at once with the error's status and fields; every other result register is
cleared, and nothing else changes (60_exceptions.md R221). -/
def raise (e : Err) (s : State) : State := s.setRes e.results

/-- The request port's completion of a request that decode turned away (30_encoding.md R64, R65), with the one request
that is none at all refused. -/
def rejectRequest (r : Reject) (s : State) : Host.Outcome State Fault Refusal :=
  match r with
  | .illegalOp => .next (raise .illegalOp s)
  | .illegalOperand => .next (raise .illegalOperand s)
  | .failMarkerOnCksum => .refused .failMarkerOnCksum

/-! ## Drawing free values -/

/-- `n` drawn bytes from draw `k` on: `draw()` per byte (00_scope.md R13). -/
def drawnBytes (k : Nat) : Nat → List Byte
  | 0 => []
  | n + 1 => Config.freeByte k :: drawnBytes (k + 1) n

/-- Fill the whole frame buffer with drawn bytes (10_state.md R32; 41_frame_buffer.md R123). -/
def drawFrame (n : Nat) (s : State) : State :=
  (s.setFb (Memory.ofBytes 0 (drawnBytes s.draws n))).setDraws (s.draws + n)

/-! ## The frames of the wire formats -/

/-- The 4-byte head of the command frame (20_memory.md R47). -/
def commandHead (cfg : Config) (c : Command) : List Byte := [0x05#8, 0x01#8, cfg.code c, 0x00#8]

/-- The command frame of `c` (20_memory.md R47; 30_encoding.md R68). -/
def commandFrame (cfg : Config) (c : Command) : Vector Byte 5 :=
  #v[0x05#8, 0x01#8, cfg.code c, 0x00#8, cfg.ck (commandHead cfg c)]

/-- The header and payload of a data frame: what its checksum covers (20_memory.md R46). -/
def dataBody (cfg : Config) (c : Command) (p : List Byte) : List Byte :=
  [0x02#8, 0x01#8, cfg.code c, cfg.len c] ++ p

/-- The data frame `DF(c, p)` that carries payload `p` (30_encoding.md R69; 95_test_vectors.md 0.1). -/
def dataFrame (cfg : Config) (c : Command) (p : List Byte) : List Byte :=
  dataBody cfg c p ++ [cfg.ck (dataBody cfg c p), 0x00#8]

end Sys2Proof.Machine
end

