-- ==== Sys2Proof/Machine/Operands.lean ====
section
/-! DEFINITION. Where an operation finds its data in a frame: validation (41_frame_buffer.md R124), the big-endian
decodings (00_scope.md R12), the windows (42_field_extractor.md R151), the layout table keyed by quantity and
command (R152), the valid source sets (R153), the extraction of a scalar (R155 to R158), and storing it under the
overflow parameter (R154). -/

namespace Sys2Proof.Machine

/-! ## Byte order (00_scope.md R12, 20_memory.md R41, R42) -/

/-- `be_u16(b0, b1)`. -/
def beU16 (b0 b1 : Byte) : Nat := b0.toNat * 256 + b1.toNat

/-- `be_s16(b0, b1)`. -/
def beS16 (b0 b1 : Byte) : Int :=
  if beU16 b0 b1 ≥ 32768 then (beU16 b0 b1 : Int) - 65536 else beU16 b0 b1

/-- The unsigned 16-bit value at frame index `a`: the lower index is the more significant byte (20_memory.md R42). -/
def Memory.u16 (m : Memory) (a : Nat) : Nat := beU16 (m.read a) (m.read (a + 1))

/-- The signed 16-bit value at frame index `a` (20_memory.md R42). -/
def Memory.s16 (m : Memory) (a : Nat) : Int := beS16 (m.read a) (m.read (a + 1))

/-! ## Validation -/

/-- The result of `Validate()` (41_frame_buffer.md R124). -/
inductive Verdict where
  | pass
  | fail (rule : Nat) (expected received : Byte)
  deriving DecidableEq, Repr

/-- The checksum of every byte before the checksum byte (41_frame_buffer.md R124 rule 5). -/
def frameChecksum (cfg : Config) (c : Command) (m : Memory) : Byte := cfg.ck (m.readBytes 0 (4 + payloadLen cfg c))

/-- `Validate()`: five rules in this exact order, the first failure reported; the reserved byte is read by none
(41_frame_buffer.md R124; 90_conflicts.md C1, C4). -/
def validate (cfg : Config) (c : Command) (m : Memory) : Verdict :=
  if m.read 0 ≠ 0x02#8 then .fail 1 0x02#8 (m.read 0)
  else if m.read 1 ≠ 0x01#8 then .fail 2 0x01#8 (m.read 1)
  else if m.read 2 ≠ cfg.code c then .fail 3 (cfg.code c) (m.read 2)
  else if m.read 3 ≠ cfg.len c then .fail 4 (cfg.len c) (m.read 3)
  else if m.read (4 + payloadLen cfg c) ≠ frameChecksum cfg c m then
    .fail 5 (frameChecksum cfg c m) (m.read (4 + payloadLen cfg c))
  else .pass

/-- The active command of a valid frame, or `NO_FRAME`, or `INVALID_FRAME` with its fields: how every operation that
needs a valid frame begins (42_field_extractor.md R150; 41_frame_buffer.md R125, R126). -/
def activeCommand (cfg : Config) (s : State) : Except Err Command :=
  match s.exp with
  | none => .error .noFrame
  | some c =>
    match validate cfg c s.fb with
    | .fail rule expected received => .error (.invalidFrame rule expected received)
    | .pass => .ok c

/-! ## The layout table -/

/-- How a quantity is found in the payload of one command: one row of 42_field_extractor.md R152. Offsets are
payload-relative. -/
inductive Source where
  /-- Eight big-endian unsigned words in a 16-byte window; as a scalar, their sum (R160, R169). -/
  | cells (off : Byte)
  /-- `be_s16`, times a scale. -/
  | signed (off : Byte) (scale : Int)
  /-- `be_u16`, times a scale. -/
  | unsigned (off : Byte) (scale : Int)
  /-- `T16`, times a scale (R151, R156). -/
  | temperature (off : Byte) (scale : Int)
  /-- One byte, raw. -/
  | byte (off : Byte)
  /-- Computed from remaining and design capacity (R166). -/
  | absoluteSoc (remOff desOff : Byte)
  /-- Computed from remaining and full charge capacity (R167). -/
  | relativeSoc (remOff fullOff : Byte)
  deriving DecidableEq, Repr

/-- The payload offset of the first window a source reads. -/
def Source.firstOffset : Source → Byte
  | .cells off => off
  | .signed off _ => off
  | .unsigned off _ => off
  | .temperature off _ => off
  | .byte off => off
  | .absoluteSoc remOff _ => remOff
  | .relativeSoc remOff _ => remOff

/-- The scale of the dedicated temperature command in units of 0.1 degC (42_field_extractor.md R156). -/
def dedicatedTempScale (cfg : Config) : Int :=
  match cfg.tempDedScale with
  | .tenth => 1
  | .unit => 10

/-- The layout table, as data keyed by quantity and command (42_field_extractor.md R152): none where the command is no
source of the quantity. -/
def layout (cfg : Config) : Quantity → Command → Option Source
  | .cellVoltages, .cellVoltage => some (.cells 0)
  | .cellVoltages, .moduleInformation => some (.cells cfg.mi.cellV)
  | .current, .current => some (.signed 0 1)
  | .current, .moduleInformation => some (.signed cfg.mi.current 10)
  | .current, .summary => some (.signed cfg.su.current 10)
  | .temperature, .temperature => some (.temperature 0 (dedicatedTempScale cfg))
  | .temperature, .moduleInformation => some (.temperature cfg.mi.temp 1)
  | .temperature, .summary => some (.temperature cfg.su.tempMax 1)
  | .remainingCapacity, .remainingCapacity => some (.unsigned 0 1)
  | .remainingCapacity, .moduleInformation => some (.unsigned cfg.mi.remCap 1)
  | .remainingCapacity, .summary => some (.unsigned cfg.su.remCap 10)
  | .designCapacity, .designCapacity => some (.unsigned 0 1)
  | .designCapacity, .moduleInformation => some (.unsigned cfg.mi.desCap 1)
  | .designCapacity, .summary => some (.unsigned cfg.su.desCap 10)
  | .fullChargeCapacity, .fullChargeCapacity => some (.unsigned 0 1)
  | .fullChargeCapacity, .moduleInformation => some (.unsigned cfg.mi.fcCap 1)
  | .fullChargeCapacity, .summary => some (.unsigned cfg.su.fcCap 10)
  | .absoluteSoc, .moduleInformation => some (.absoluteSoc cfg.mi.remCap cfg.mi.desCap)
  | .absoluteSoc, .summary => some (.byte cfg.su.absSoc)
  | .relativeSoc, .moduleInformation => some (.relativeSoc cfg.mi.remCap cfg.mi.fcCap)
  | .relativeSoc, .summary => some (.byte cfg.su.relSoc)
  | .stateOfHealth, .stateOfHealth => some (.byte 0)
  | .stateOfHealth, .moduleInformation => some (.byte cfg.mi.soh)
  | .stateOfHealth, .summary => some (.byte cfg.su.soh)
  | .moduleVoltage, .moduleInformation => some (.cells cfg.mi.cellV)
  | .moduleVoltage, .summary => some (.unsigned cfg.su.modV 1)
  | .failStatus1, .failStatus1 => some (.byte 0)
  | .failStatus1, .moduleInformation => some (.byte cfg.mi.fs1)
  | .failStatus1, .summary => some (.byte cfg.su.fs1)
  | .failStatus2, .failStatus2 => some (.byte 0)
  | .failStatus2, .moduleInformation => some (.byte cfg.mi.fs2)
  | .failStatus2, .summary => some (.byte cfg.su.fs2)
  | .failStatus3, .summary => some (.byte cfg.su.fs3)
  | _, _ => none

/-- `VALID[q]`: the commands listed as a source for `q` (42_field_extractor.md R153). -/
def validSources (cfg : Config) (q : Quantity) : List Command :=
  Command.all.filter (fun c => (layout cfg q c).isSome)

/-- `mask(V)`: bit `i` set for each command index `i` in `V` (42_field_extractor.md R150). -/
def commandMask (cs : List Command) : Half :=
  cs.foldr (fun c acc => BitVec.twoPow 16 c.index ||| acc) 0#16

/-- The source of `q` in a frame of command `c`, or `NO_APPROPRIATE_DATA` with the active command and the set that
would have worked (42_field_extractor.md R150, R153). -/
def sourceOf (cfg : Config) (q : Quantity) (c : Command) : Except Err Source :=
  match layout cfg q c with
  | some src => .ok src
  | none => .error (.noAppropriateData c (commandMask (validSources cfg q)))

/-! ## Windows and extraction -/

/-- `Window(q, o, w)`: the frame index of the first byte of a window of width `w` at payload offset `o`, or
`DATA_BYTES_SHORTAGE` for quantity `q` (42_field_extractor.md R151; 20_memory.md R48). -/
def window (cfg : Config) (c : Command) (q : Quantity) (o : Byte) (w : Nat) : Except Err Nat :=
  if o.toNat + w > payloadLen cfg c then .error (.dataBytesShortage q (o.toNat + w) (payloadLen cfg c))
  else .ok (4 + o.toNat)

/-- `T16`: a temperature word, signed or not as the configuration says (42_field_extractor.md R151). -/
def temperatureWord (cfg : Config) (m : Memory) (a : Nat) : Int :=
  if cfg.tempSigned then m.s16 a else m.u16 a

/-- The cell at position `i` of a 16-byte window that begins at frame index `a` (42_field_extractor.md R160). -/
def cellAt (m : Memory) (a i : Nat) : Nat := m.u16 (a + 2 * i)

/-- The sum of the eight cells of a window (42_field_extractor.md R169). -/
def cellSum (m : Memory) (a : Nat) : Nat :=
  cellAt m a 0 + cellAt m a 1 + cellAt m a 2 + cellAt m a 3 + cellAt m a 4 + cellAt m a 5 + cellAt m a 6 + cellAt m a 7

/-- The scalar value of quantity `q` found by a source, an exact integer, with its windows checked in the order the
rule reads them (42_field_extractor.md R151, R155 to R159, R161 to R172). A shortage inside a computed quantity
reports the quantity of the window that ran short (92 D24). -/
def evalSource (cfg : Config) (c : Command) (m : Memory) (q : Quantity) : Source → Except Err Int
  | .cells off => do
    let a ← window cfg c .cellVoltages off 16
    return cellSum m a
  | .signed off scale => do
    let a ← window cfg c q off 2
    return scale * m.s16 a
  | .unsigned off scale => do
    let a ← window cfg c q off 2
    return scale * m.u16 a
  | .temperature off scale => do
    let a ← window cfg c q off 2
    return scale * temperatureWord cfg m a
  | .byte off => do
    let a ← window cfg c q off 1
    return (m.read a).toNat
  | .absoluteSoc remOff desOff => do
    let rem ← window cfg c .remainingCapacity remOff 2
    let des ← window cfg c .designCapacity desOff 2
    if m.u16 des = 0 then .error (.divideByZero q) else .ok (cfg.absSocFn (m.u16 rem) (m.u16 des))
  | .relativeSoc remOff fullOff => do
    let rem ← window cfg c .remainingCapacity remOff 2
    let full ← window cfg c .fullChargeCapacity fullOff 2
    if m.u16 full = 0 then .error (.divideByZero q) else .ok ((100 * m.u16 rem / m.u16 full : Nat) : Int)

/-- The extraction of a scalar quantity from a valid frame of command `c` (42_field_extractor.md R150, R151). -/
def extract (cfg : Config) (c : Command) (m : Memory) (q : Quantity) : Except Err Int := do
  let src ← sourceOf cfg q c
  evalSource cfg c m q src

/-! ## Storing a scalar result -/

/-- The narrow range of a result (42_field_extractor.md R154); none where it is the result's full range. -/
def narrowRange : Quantity → Option (Int × Int)
  | .cellVoltages => none
  | .current => some (-32768, 32767)
  | .temperature => none
  | .remainingCapacity => some (0, 65535)
  | .designCapacity => some (0, 65535)
  | .fullChargeCapacity => some (0, 65535)
  | .absoluteSoc => some (0, 255)
  | .relativeSoc => some (0, 255)
  | .stateOfHealth => none
  | .moduleVoltage => some (0, 65535)
  | .failStatus1 => none
  | .failStatus2 => none
  | .failStatus3 => none

/-- `v` lies in the narrow range of `q` (42_field_extractor.md R154). -/
def inNarrowRange (q : Quantity) (v : Int) : Bool :=
  match narrowRange q with
  | some (lo, hi) => decide (lo ≤ v ∧ v ≤ hi)
  | none => true

/-- The spec states the value `RVAL` takes: `v` fits 32 bits, and under `RESULT_OVERFLOW = ANY` it lies in the narrow
range of `q` (42_field_extractor.md R154; notes/assumptions/13.md). -/
def valueStated (cfg : Config) (q : Quantity) (v : Int) : Bool :=
  decide (-2147483648 ≤ v ∧ v ≤ 2147483647) && (decide (cfg.resultOverflow = .exact) || inNarrowRange q v)

/-- `Store(q, v)` and completion: `RVAL` is `v` as s32, or a drawn value (42_field_extractor.md R154). -/
def storeScalar (cfg : Config) (q : Quantity) (v : Int) (s : State) : State :=
  if valueStated cfg q v then complete { Results.ok with rval := BitVec.ofInt 32 v } s
  else (complete { Results.ok with rval := Config.freeWord s.draws } s).setDraws (s.draws + 1)

/-- A scalar accessor: validate, find, decode, store (42_field_extractor.md R150 to R159). -/
def readScalar (cfg : Config) (q : Quantity) (s : State) : State :=
  match activeCommand cfg s with
  | .error e => raise e s
  | .ok c =>
    match extract cfg c s.fb q with
    | .error e => raise e s
    | .ok v => storeScalar cfg q v s

end Sys2Proof.Machine
end

