-- ==== Sys2Proof/Machine/ChecksumBuilder.lean ====
section
/-! DEFINITION. The checksum engine, the command catalog and the command frame builder (40_checksum_builder.md).
Each operation is a function of the configuration, `run…`, and its meaning `exec…` is that function at the machine's
configuration. -/

namespace Sys2Proof.Machine

/-- `CKSUM` (40_checksum_builder.md R101). -/
def runCksum (cfg : Config) (stream : List Byte) (s : State) : State :=
  complete { Results.ok with rval := (cfg.ck stream).setWidth 32 } s

/-- The meaning of `CKSUM`. -/
def execCksum (stream : List Byte) (s : State) : Host.Outcome State Fault Refusal :=
  .next (runCksum Config.device stream s)

/-- `CMD_INFO`: `RVAL[7:0]` is the wire code, `RVAL[15:8]` the declared length (40_checksum_builder.md R103). -/
def runCmdInfo (cfg : Config) (cmd : Command) (s : State) : State :=
  complete { Results.ok with rval := 0#16 ++ cfg.len cmd ++ cfg.code cmd } s

/-- The meaning of `CMD_INFO`. -/
def execCmdInfo (cmd : Command) (s : State) : Host.Outcome State Fault Refusal :=
  .next (runCmdInfo Config.device cmd s)

/-- `BUILD`, with the precondition of R105 checked before anything is written (40_checksum_builder.md R104, R105). -/
def runBuild (cfg : Config) (cmd : Command) (s : State) : State :=
  if cfg.reqLen cmd ≠ 0 then raise (.buildUnsupported cmd) s
  else
    complete { Results.ok with rbytes := (commandFrame cfg cmd).toList, rlen := 5 }
      ((s.setTxb (commandFrame cfg cmd)).setTxv true)

/-- The meaning of `BUILD`. -/
def execBuild (cmd : Command) (s : State) : Host.Outcome State Fault Refusal :=
  .next (runBuild Config.device cmd s)

end Sys2Proof.Machine
end

