-- ==== Sys2Proof/Machine/FaultDecoder.lean ====
section
/-! DEFINITION. The fault bitmask decoder (43_fault_decoder.md R200 to R206). -/

namespace Sys2Proof.Machine

/-- The quantity that holds a fault-status register (42_field_extractor.md R170 to R172). -/
def registerQuantity : FaultRegister → Quantity
  | .one => .failStatus1
  | .two => .failStatus2
  | .three => .failStatus3

/-- `TryRegister(r)` on a valid frame of command `c`: the register byte, or unavailable where its extraction would
raise (43_fault_decoder.md R206). -/
def tryRegister (cfg : Config) (c : Command) (m : Memory) (r : FaultRegister) : Option Byte :=
  match extract cfg c m (registerQuantity r) with
  | .ok v => some (BitVec.ofInt 8 v)
  | .error _ => none

/-- The state of the fault with id `fid` in a valid frame of command `c` (43_fault_decoder.md R203, R204). -/
def faultStateIn (cfg : Config) (c : Command) (m : Memory) (fid : Nat) : FaultState :=
  FaultState.ofByte? (tryRegister cfg c m (faultRegister fid)) (faultBit fid)

/-- `FAULT_DECODE`: the state of one bit of a raw byte; needs no frame (43_fault_decoder.md R202). -/
def runFaultDecode (fault : FaultId) (byte : Byte) (s : State) : State :=
  complete { Results.ok with rval := (FaultState.ofBit byte (faultBit fault.fid)).code.setWidth 32 } s

/-- The meaning of `FAULT_DECODE`. -/
def execFaultDecode (fault : FaultId) (byte : Byte) (s : State) : Host.Outcome State Fault Refusal :=
  .next (runFaultDecode fault byte s)

/-- `FAULT_BY_NAME`: an invalid frame is an error, a register the frame does not carry is Unknown
(43_fault_decoder.md R203; 90_conflicts.md C7). -/
def runFaultByName (cfg : Config) (fault : FaultId) (s : State) : State :=
  match activeCommand cfg s with
  | .error e => raise e s
  | .ok c => complete { Results.ok with rval := (faultStateIn cfg c s.fb fault.fid).code.setWidth 32 } s

/-- The meaning of `FAULT_BY_NAME`. -/
def execFaultByName (fault : FaultId) (s : State) : Host.Outcome State Fault Refusal :=
  .next (runFaultByName Config.device fault s)

/-- `FAULT_ITER`: all 24 states in fault-id order (43_fault_decoder.md R204). -/
def runFaultIter (cfg : Config) (s : State) : State :=
  match activeCommand cfg s with
  | .error e => raise e s
  | .ok c => complete { Results.ok with rfault := Vector.ofFn (fun i : Fin 24 => (faultStateIn cfg c s.fb i.val).code) } s

/-- The meaning of `FAULT_ITER`. -/
def execFaultIter (s : State) : Host.Outcome State Fault Refusal :=
  .next (runFaultIter Config.device s)

end Sys2Proof.Machine
end

