-- ==== Sys2Proof/Machine/FieldExtractor.lean ====
section
/-! DEFINITION. The field extractor (42_field_extractor.md R160 to R172). The twelve scalar accessors are one line each
over `readScalar`: what differs between them is their row of the layout table (R152), the range of their result (R154)
and the rule they are named by. -/

namespace Sys2Proof.Machine

/-- The first byte of the 16-byte cell window in a valid frame of command `c` (42_field_extractor.md R160). -/
def cellWindow (cfg : Config) (c : Command) : Except Err Nat := do
  let src ← sourceOf cfg .cellVoltages c
  window cfg c .cellVoltages src.firstOffset 16

/-- `GET_CELL_VOLTAGES`: `RVEC[i]` is the cell at window bytes `2i` and `2i+1` (42_field_extractor.md R160). -/
def runGetCellVoltages (cfg : Config) (s : State) : State :=
  match activeCommand cfg s with
  | .error e => raise e s
  | .ok c =>
    match cellWindow cfg c with
    | .error e => raise e s
    | .ok a =>
      complete { Results.ok with rvec := Vector.ofFn (fun i : Fin 8 => BitVec.ofNat 16 (cellAt s.fb a i.val)) } s

/-- The meaning of `GET_CELL_VOLTAGES`. -/
def execGetCellVoltages (s : State) : Host.Outcome State Fault Refusal :=
  .next (runGetCellVoltages Config.device s)

/-- The meaning of `GET_CURRENT` (42_field_extractor.md R161). -/
def execGetCurrent (s : State) : Host.Outcome State Fault Refusal :=
  .next (readScalar Config.device .current s)

/-- The meaning of `GET_TEMPERATURE` (42_field_extractor.md R162). -/
def execGetTemperature (s : State) : Host.Outcome State Fault Refusal :=
  .next (readScalar Config.device .temperature s)

/-- The meaning of `GET_REMAINING_CAPACITY` (42_field_extractor.md R163). -/
def execGetRemainingCapacity (s : State) : Host.Outcome State Fault Refusal :=
  .next (readScalar Config.device .remainingCapacity s)

/-- The meaning of `GET_DESIGN_CAPACITY` (42_field_extractor.md R164). -/
def execGetDesignCapacity (s : State) : Host.Outcome State Fault Refusal :=
  .next (readScalar Config.device .designCapacity s)

/-- The meaning of `GET_FULL_CHARGE_CAPACITY` (42_field_extractor.md R165). -/
def execGetFullChargeCapacity (s : State) : Host.Outcome State Fault Refusal :=
  .next (readScalar Config.device .fullChargeCapacity s)

/-- The meaning of `GET_ABSOLUTE_SOC` (42_field_extractor.md R166). -/
def execGetAbsoluteSoc (s : State) : Host.Outcome State Fault Refusal :=
  .next (readScalar Config.device .absoluteSoc s)

/-- The meaning of `GET_RELATIVE_SOC` (42_field_extractor.md R167). -/
def execGetRelativeSoc (s : State) : Host.Outcome State Fault Refusal :=
  .next (readScalar Config.device .relativeSoc s)

/-- The meaning of `GET_STATE_OF_HEALTH` (42_field_extractor.md R168). -/
def execGetStateOfHealth (s : State) : Host.Outcome State Fault Refusal :=
  .next (readScalar Config.device .stateOfHealth s)

/-- The meaning of `GET_MODULE_VOLTAGE` (42_field_extractor.md R169). -/
def execGetModuleVoltage (s : State) : Host.Outcome State Fault Refusal :=
  .next (readScalar Config.device .moduleVoltage s)

/-- The meaning of `GET_FAIL_STATUS_1` (42_field_extractor.md R170). -/
def execGetFailStatus1 (s : State) : Host.Outcome State Fault Refusal :=
  .next (readScalar Config.device .failStatus1 s)

/-- The meaning of `GET_FAIL_STATUS_2` (42_field_extractor.md R171). -/
def execGetFailStatus2 (s : State) : Host.Outcome State Fault Refusal :=
  .next (readScalar Config.device .failStatus2 s)

/-- The meaning of `GET_FAIL_STATUS_3` (42_field_extractor.md R172). -/
def execGetFailStatus3 (s : State) : Host.Outcome State Fault Refusal :=
  .next (readScalar Config.device .failStatus3 s)

end Sys2Proof.Machine
end

