-- ==== Sys2Proof/Machine/FrameBuffer.lean ====
section
/-! DEFINITION. The data frame buffer and the validator (41_frame_buffer.md). -/

namespace Sys2Proof.Machine

/-- `FRAME_NEW`: the old buffer is discarded whole, the new one is zero-filled (41_frame_buffer.md R120, R129). Its
length `FLEN` follows from `EXP` (10_state.md R23), so no length is stored. -/
def runFrameNew (cmd : Command) (s : State) : State :=
  complete Results.ok ((s.setExp (some cmd)).setFb Memory.zeros)

/-- The meaning of `FRAME_NEW`. -/
def execFrameNew (cmd : Command) (s : State) : Host.Outcome State Fault Refusal :=
  .next (runFrameNew cmd s)

/-- `FB_WRITE` (41_frame_buffer.md R121). -/
def runFbWrite (cfg : Config) (index : Nat) (byte : Byte) (s : State) : State :=
  match s.exp with
  | none => raise .noFrame s
  | some c =>
    if frameLen cfg c ≤ index then raise (.indexRange index (frameLen cfg c)) s
    else complete Results.ok (s.setFb (s.fb.write index byte))

/-- The meaning of `FB_WRITE`. -/
def execFbWrite (index : Nat) (byte : Byte) (s : State) : Host.Outcome State Fault Refusal :=
  .next (runFbWrite Config.device index byte s)

/-- `FB_READ` (41_frame_buffer.md R122). -/
def runFbRead (cfg : Config) (index : Nat) (s : State) : State :=
  match s.exp with
  | none => raise .noFrame s
  | some c =>
    if frameLen cfg c ≤ index then raise (.indexRange index (frameLen cfg c)) s
    else complete { Results.ok with rval := (s.fb.read index).setWidth 32 } s

/-- The meaning of `FB_READ`. -/
def execFbRead (index : Nat) (s : State) : Host.Outcome State Fault Refusal :=
  .next (runFbRead Config.device index s)

/-- The transport's reply, or its failure, has come: no exchange is open any more (70_reset_and_hazards.md R255;
notes/assumptions/8.md). -/
def endExchange (s : State) : State := s.setTransport { s.transport with awaiting := false }

/-- A failed receive: every byte of the buffer is drawn, `EXP` stays (41_frame_buffer.md R123; 10_state.md R32). -/
def failReceive (n : Nat) (s : State) : State := raise .receiveFailed (drawFrame n s)

/-- `RECEIVE`: exactly `FLEN` bytes fill the buffer; `FAIL` or any other number of bytes is a failed receive
(41_frame_buffer.md R123; 70_reset_and_hazards.md R257). -/
def runReceive (cfg : Config) (stream : Stream) (s : State) : State :=
  match s.exp with
  | none => raise .noFrame (endExchange s)
  | some c =>
    match stream with
    | .fail => failReceive (frameLen cfg c) (endExchange s)
    | .bytes bs =>
      if bs.length = frameLen cfg c then complete Results.ok ((endExchange s).setFb (Memory.ofBytes 0 bs))
      else failReceive (frameLen cfg c) (endExchange s)

/-- The meaning of `RECEIVE`. -/
def execReceive (stream : Stream) (s : State) : Host.Outcome State Fault Refusal :=
  .next (runReceive Config.device stream s)

/-- `VALIDATE`, also the spec's rendering of frame-view construction (41_frame_buffer.md R125). -/
def runValidate (cfg : Config) (s : State) : State :=
  match activeCommand cfg s with
  | .error e => raise e s
  | .ok _ => complete Results.ok s

/-- The meaning of `VALIDATE`. -/
def execValidate (s : State) : Host.Outcome State Fault Refusal :=
  .next (runValidate Config.device s)

/-- `PAYLOAD`: the payload slice, without validating; its length is `LEN[EXP]` whatever `FB[3]` holds
(41_frame_buffer.md R127). -/
def runPayload (cfg : Config) (s : State) : State :=
  match s.exp with
  | none => raise .noFrame s
  | some c =>
    complete { Results.ok with rbytes := s.fb.readBytes 4 (payloadLen cfg c), rlen := BitVec.ofNat 16 (payloadLen cfg c) } s

/-- The meaning of `PAYLOAD`. -/
def execPayload (s : State) : Host.Outcome State Fault Refusal :=
  .next (runPayload Config.device s)

end Sys2Proof.Machine
end

