-- ==== Sys2Proof/Machine/Dispatch.lean ====
section
/-! DEFINITION. One arm per operation (30_encoding.md R63): the meaning of every instruction. -/

namespace Sys2Proof.Machine

def exec (i : Instr) (s : State) : Host.Outcome State Fault Refusal :=
  match i with
  | .cksum stream => Sys2Proof.Machine.execCksum stream s
  | .cmdInfo cmd => Sys2Proof.Machine.execCmdInfo cmd s
  | .build cmd => Sys2Proof.Machine.execBuild cmd s
  | .frameNew cmd => Sys2Proof.Machine.execFrameNew cmd s
  | .fbWrite index byte => Sys2Proof.Machine.execFbWrite index byte s
  | .fbRead index => Sys2Proof.Machine.execFbRead index s
  | .receive stream => Sys2Proof.Machine.execReceive stream s
  | .validate => Sys2Proof.Machine.execValidate s
  | .payload => Sys2Proof.Machine.execPayload s
  | .getCellVoltages => Sys2Proof.Machine.execGetCellVoltages s
  | .getCurrent => Sys2Proof.Machine.execGetCurrent s
  | .getTemperature => Sys2Proof.Machine.execGetTemperature s
  | .getRemainingCapacity => Sys2Proof.Machine.execGetRemainingCapacity s
  | .getDesignCapacity => Sys2Proof.Machine.execGetDesignCapacity s
  | .getFullChargeCapacity => Sys2Proof.Machine.execGetFullChargeCapacity s
  | .getAbsoluteSoc => Sys2Proof.Machine.execGetAbsoluteSoc s
  | .getRelativeSoc => Sys2Proof.Machine.execGetRelativeSoc s
  | .getStateOfHealth => Sys2Proof.Machine.execGetStateOfHealth s
  | .getModuleVoltage => Sys2Proof.Machine.execGetModuleVoltage s
  | .getFailStatus1 => Sys2Proof.Machine.execGetFailStatus1 s
  | .getFailStatus2 => Sys2Proof.Machine.execGetFailStatus2 s
  | .getFailStatus3 => Sys2Proof.Machine.execGetFailStatus3 s
  | .faultDecode fault byte => Sys2Proof.Machine.execFaultDecode fault byte s
  | .faultByName fault => Sys2Proof.Machine.execFaultByName fault s
  | .faultIter => Sys2Proof.Machine.execFaultIter s

end Sys2Proof.Machine
end

