-- ==== Sys2Proof/Machine/Environment.lean ====
section
/-! DEFINITION. What the transport's `SEND` and `OPEN` and the reset line do (60_exceptions.md R240, R242;
70_reset_and_hazards.md R250, R255, R256): none of the three is an operation of the block. And what the transport makes
of a `RECEIVE` before the block sees it (70 R251, R255), for "the block does not check this". -/

namespace Sys2Proof.Machine

/-- The transport sends the command frame in `TXB`: it reads `TXB`, writes no block state, and keeps its own outcome
(60_exceptions.md R240). A `SEND` while `TXV = 0` is a fault of the host (70 R256). A `SEND` while a reply is awaited
has no move (70 R255; 93 I13). -/
def transportSend (succeeds : Bool) (s : State) : Host.Outcome State Fault Refusal :=
  if s.txv = false then .fault .sendBeforeBuild
  else if s.transport.awaiting = true then .fault .interleavedExchange
  else if succeeds = true then
    .next (s.setTransport
      { s.transport with status := Status.ok.code, awaiting := true, sent := s.txb :: s.transport.sent })
  else .next (s.setTransport { s.transport with status := Status.sendFailed.code })

/-- The transport opens its link, or fails to: no block state is touched (60_exceptions.md R242). -/
def transportOpen (succeeds : Bool) (s : State) : Host.Outcome State Fault Refusal :=
  .next (s.setTransport
    { s.transport with
      opened := succeeds
      status := if succeeds = true then Status.ok.code else Status.openFailed.code })

/-- A reply is awaited to another command than the one the buffer is allocated for: the frame sent last is not the
command frame of `EXP` (70_reset_and_hazards.md R255; 93 I13). Without a buffer there is no such command, and R257
says what the `RECEIVE` does. -/
def bufferForAnother (cfg : Config) (s : State) : Bool :=
  match s.exp with
  | none => false
  | some c => s.transport.awaiting && decide (s.transport.sent.head? ≠ some (commandFrame cfg c))

/-- What a transport delivers: "A `RECEIVE` from an unopened transport is a `RECEIVE_FAILED`", so one that is not open
has only `FAIL` to deliver (70_reset_and_hazards.md R251; 41_frame_buffer.md R123). -/
def delivered (opened : Bool) (stream : Stream) : Stream := if opened = true then stream else .fail

/-- The operation that reaches the block: a `RECEIVE` passes the transport, every other operation comes as it is
(70_reset_and_hazards.md R251, R255; notes/assumptions/7.md, 8.md). -/
def arriving (cfg : Config) (s : State) : Instr → Except Fault Instr
  | .receive stream =>
    if bufferForAnother cfg s = true then .error .bufferForAnotherCommand
    else .ok (.receive (delivered s.transport.opened stream))
  | i => .ok i

/-- Reset puts every piece of block state to its value of 10_state.md R31, with five fresh draws for `TXB`; the
transport and what is still to come are not the block's and stay (70_reset_and_hazards.md R250). -/
def resetBlock (s : State) : State :=
  (((((s.setExp none).setFb Memory.zeros).setTxb (drawnTxb s.draws)).setTxv false).setRes Results.reset).setDraws
    (s.draws + 5)

end Sys2Proof.Machine
end

