-- ==== Sys2Proof/Machine/Step.lean ====
section
/-! DEFINITION. One step: the next input takes effect, whole, before the one after it (20_memory.md R49; 30_encoding.md
R60). The block fetches nothing from memory (20_memory.md R53): its next request is the head of `State.inputs`. -/

namespace Sys2Proof.Machine

/-- The block accepts a request: it decodes the word and executes the operation, or completes with the status of a
request that decode turned away (30_encoding.md R60, R64). A `RECEIVE` comes as the transport has it (`arriving`). -/
def acceptRequest (r : Request) (s : State) : Host.Outcome State Fault Refusal :=
  match decode r with
  | .ok i =>
    match arriving Config.device s i with
    | .ok i => exec i s
    | .error f => .fault f
  | .error why => rejectRequest why s

/-- An input takes effect. -/
def acceptInput (inp : Input) (s : State) : Host.Outcome State Fault Refusal :=
  match inp with
  | .request r => acceptRequest r s
  | .transportSend succeeds => transportSend succeeds s
  | .transportOpen succeeds => transportOpen succeeds s
  | .reset => .next (resetBlock s)

/-- One step: the next input is taken from the list and takes effect. With nothing to come the engine waits and
nothing changes (10_state.md R27; notes/assumptions/5.md). -/
def step (s : State) : Host.Outcome State Fault Refusal :=
  match s.inputs with
  | [] => .next s
  | inp :: rest => acceptInput inp (s.setInputs rest)

/-- `s` with the request of that word as the next input; what was to come follows it (notes/assumptions/4.md). -/
def State.withFetchWord (s : State) (nbits w : Nat) : State :=
  s.setInputs (.request (tableRequest nbits w) :: s.inputs)

end Sys2Proof.Machine
end

