-- ==== Sys2Proof/Safety.lean ====
section
/-! DEFINITION. The terms claims are stated in: what a valid frame is (20_memory.md R46), which states are legal, what
an operation leaves alone, when host and transport keep their obligations (70_reset_and_hazards.md R251, R255, R256;
60_exceptions.md R229, R241). -/

namespace Sys2Proof.Machine

/-! ## Frames -/

/-- The frame buffer holds a frame of command `c` that every rule of 41_frame_buffer.md R124 accepts, byte by byte
as 20_memory.md R46 lays it out. -/
structure ValidFrame (cfg : Config) (s : State) (c : Command) : Prop where
  expected : s.exp = some c
  startCode : s.fb.read 0 = 0x02#8
  leaderId : s.fb.read 1 = 0x01#8
  responseCode : s.fb.read 2 = cfg.code c
  declaredLength : s.fb.read 3 = cfg.len c
  checksum : s.fb.read (4 + (cfg.len c).toNat) = cfg.ck (s.fb.readBytes 0 (4 + (cfg.len c).toNat))

/-! ## Legal states -/

/-- The status codes an operation of the block, or reset, leaves in `RSTATUS` (60_exceptions.md R220: the codes 0x10
and 0x11 are the transport's, "codes 0x08 to 0x0D, 0x13 to 0xFE are never written"). -/
def blockStatusCodes : List Byte :=
  [0x00, 0x01, 0x02, 0x03, 0x04, 0x05, 0x06, 0x07, 0x0E, 0x0F, 0x12, 0xFF]

/-- The frame buffer is in canonical form and no byte lies outside `FB[0 .. FLEN)` (10_state.md R22, R23). -/
def FrameLegal (cfg : Config) (s : State) : Prop :=
  s.fb.wf = true ∧ ∀ cell ∈ s.fb, cell.1 < s.flen cfg

/-- `TXB` holds the command frame of some command whenever `TXV` is set (10_state.md R26; 20_memory.md R47). -/
def TransmitLegal (cfg : Config) (s : State) : Prop :=
  s.txv = true → ∃ c, s.txb = commandFrame cfg c

/-- The result file holds only codes that the spec says are written, and `RLEN` counts the valid bytes of `RBYTES`,
at most 255 (60_exceptions.md R220; 43_fault_decoder.md R200; 10_state.md R24). -/
structure ResultsLegal (r : Results) : Prop where
  status : r.rstatus ∈ blockStatusCodes
  rule : r.rrule.toNat ≤ 5
  fault : ∀ i : Fin 24, r.rfault[i] ≠ 3#2
  length : r.rlen.toNat = r.rbytes.length
  bytes : r.rbytes.length ≤ 255

/-- The invariant of every step. -/
structure Legal (cfg : Config) (s : State) : Prop where
  frame : FrameLegal cfg s
  transmit : TransmitLegal cfg s
  results : ResultsLegal s.res

/-! ## Frames of operations -/

/-- Everything but the result file is the same: what an operation that only reports leaves (20_memory.md R45). -/
def SameButResults (s t : State) : Prop :=
  t.exp = s.exp ∧ t.fb = s.fb ∧ t.txb = s.txb ∧ t.txv = s.txv ∧ t.inputs = s.inputs ∧ t.transport = s.transport

/-! ## What an operation reports -/

/-- The scalar result `v` is reported with status `OK` and every other result register cleared, nothing else changed;
`RVAL` is `v` as s32 where 42_field_extractor.md R154 states the value: under `EXACT`, or inside the narrow range
`lo .. hi`. Elsewhere `RVAL` is not constrained. -/
structure ReportsScalar (cfg : Config) (lo hi v : Int) (s t : State) : Prop where
  same : SameButResults s t
  results : t.res = { Results.cleared with rval := t.res.rval }
  value : -2147483648 ≤ v → v ≤ 2147483647 → (cfg.resultOverflow = .exact ∨ (lo ≤ v ∧ v ≤ hi)) →
    t.res.rval = BitVec.ofInt 32 v ∧ t.draws = s.draws

/-- `DATA_BYTES_SHORTAGE` is reported for quantity id `q`, and nothing but the result file changes
(42_field_extractor.md R151; 60_exceptions.md R220, R221). -/
def ReportsShortage (q need avail : Nat) (s t : State) : Prop :=
  t = s.setRes { Results.cleared with
    rstatus := 0x03#8, rqty := BitVec.ofNat 8 q, rneed := BitVec.ofNat 16 need, ravail := BitVec.ofNat 16 avail }

/-- The result `v` of a window of width `w` at payload offset `off`, or the shortage of quantity id `q` where the
window does not fit in `LEN[c]` (42_field_extractor.md R151; 20_memory.md R48). -/
def ReportsWindow (cfg : Config) (c : Command) (q off w : Nat) (lo hi v : Int) (s t : State) : Prop :=
  if off + w ≤ (cfg.len c).toNat then ReportsScalar cfg lo hi v s t
  else ReportsShortage q (off + w) (cfg.len c).toNat s t

/-- The least and the greatest s32 value: the range of a result that has no narrow range. -/
def s32Min : Int := -2147483648

/-- See `s32Min`. -/
def s32Max : Int := 2147483647

/-- The byte of fault-status register `r` (1, 2 or 3) that a frame of command `c` carries: where the command is a
source of the register and the window fits (42_field_extractor.md R152, R170 to R172; 43_fault_decoder.md R206). -/
def carriedRegister (cfg : Config) (m : Memory) (r : Nat) (c : Command) : Option Byte :=
  let byteAt (off : Nat) : Option Byte := if off + 1 ≤ (cfg.len c).toNat then some (m.read (4 + off)) else none
  match r, c with
  | 1, .failStatus1 => byteAt 0
  | 1, .moduleInformation => byteAt cfg.mi.fs1.toNat
  | 1, .summary => byteAt cfg.su.fs1.toNat
  | 2, .failStatus2 => byteAt 0
  | 2, .moduleInformation => byteAt cfg.mi.fs2.toNat
  | 2, .summary => byteAt cfg.su.fs2.toNat
  | 3, .summary => byteAt cfg.su.fs3.toNat
  | _, _ => none

/-- The code of the fault state that bit `b` (value `2^b`) of a register byte gives: 0 Unknown where there is no byte,
1 Ok where the bit is 0, 2 Ng where it is 1 (43_fault_decoder.md R200, R205; 00_scope.md R11). -/
def bitState (x : Option Byte) (b : Nat) : Nat :=
  match x with
  | none => 0
  | some x => if x.toNat / 2 ^ b % 2 = 1 then 2 else 1

/-- The statuses that the rule of an operation lists, but for those of decode (40_checksum_builder.md R101 to R104;
41 R120 to R127; 42 R160 to R172; 43 R202 to R204; 60_exceptions.md R220 "raised by"). `BUILD_UNSUPPORTED` is
"unreachable under law R9 (d)". -/
def listedStatuses : Instr → List Byte
  | .cksum _ => [0x00]
  | .cmdInfo _ => [0x00]
  | .build _ => [0x00]
  | .frameNew _ => [0x00]
  | .fbWrite _ _ => [0x00, 0x05, 0x06]
  | .fbRead _ => [0x00, 0x05, 0x06]
  | .receive _ => [0x00, 0x05, 0x12]
  | .validate => [0x00, 0x01, 0x05]
  | .payload => [0x00, 0x05]
  | .getAbsoluteSoc => [0x00, 0x01, 0x02, 0x03, 0x04, 0x05]
  | .getRelativeSoc => [0x00, 0x01, 0x02, 0x03, 0x04, 0x05]
  | .getCellVoltages | .getCurrent | .getTemperature | .getRemainingCapacity | .getDesignCapacity
  | .getFullChargeCapacity | .getStateOfHealth | .getModuleVoltage | .getFailStatus1 | .getFailStatus2
  | .getFailStatus3 => [0x00, 0x01, 0x02, 0x03, 0x05]
  | .faultDecode _ _ => [0x00]
  | .faultByName _ => [0x00, 0x01, 0x05]
  | .faultIter => [0x00, 0x01, 0x05]

/-- The thirteen accessors with the mask of their valid source set, as the table of 42_field_extractor.md R153 gives
it. -/
def accessorMasks : List (Instr × Half) :=
  [(.getCellVoltages, 0x0201), (.getCurrent, 0x0602), (.getTemperature, 0x0604), (.getRemainingCapacity, 0x0608),
   (.getDesignCapacity, 0x0610), (.getFullChargeCapacity, 0x0620), (.getAbsoluteSoc, 0x0600), (.getRelativeSoc, 0x0600),
   (.getStateOfHealth, 0x0640), (.getModuleVoltage, 0x0600), (.getFailStatus1, 0x0680), (.getFailStatus2, 0x0700),
   (.getFailStatus3, 0x0400)]

/-- The operation validates the frame before it reads it (41_frame_buffer.md R126). -/
def validatesFirst (i : Instr) : Prop :=
  (∃ mask, (i, mask) ∈ accessorMasks) ∨ (∃ f, i = .faultByName f) ∨ i = .faultIter

/-- The operation needs a frame buffer (60_exceptions.md R222). -/
def needsFrame (i : Instr) : Prop :=
  validatesFirst i ∨ (∃ n b, i = .fbWrite n b) ∨ (∃ n, i = .fbRead n) ∨ (∃ st, i = .receive st) ∨ i = .validate ∨
    i = .payload

/-! ## Obligations of the host and the transport -/

/-- The frame sent last is for the command the buffer is allocated for (70_reset_and_hazards.md R255: "`FRAME_NEW c`
with the same `c` as the `BUILD c` whose frame was sent"). -/
def AnswersLastSent (cfg : Config) (s : State) : Prop :=
  ∃ c frame, s.exp = some c ∧ s.transport.sent.head? = some frame ∧ frame = commandFrame cfg c

/-- Host and transport keep their obligations with the next input: only the transport issues `RECEIVE` and nothing
else (60_exceptions.md R229, R241), it delivers bytes only when opened (70 R251), only while a reply is awaited and
into a buffer allocated for the command sent (70 R252, R255), and it sends only a built frame, one exchange at a
time (70 R255, R256). -/
def Obeys (cfg : Config) (s : State) : Input → Prop
  | .request r =>
    match decode r with
    | .ok (.receive (.bytes _)) => s.transport.opened = true ∧ s.transport.awaiting = true ∧ AnswersLastSent cfg s
    | .ok (.receive .fail) => s.transport.awaiting = true ∧ bufferForAnother cfg s = false
    | .ok _ => r.agent = .host
    | .error why => r.agent = .host ∧ why ≠ .failMarkerOnCksum
  | .transportSend succeeds =>
    s.txv = true ∧ s.transport.awaiting = false ∧ (succeeds = true → s.transport.opened = true)
  | .transportOpen _ => True
  | .reset => True

end Sys2Proof.Machine
end

