-- ==== Sys2Proof/Certificates/Slice0/Obligations.lean ====
section
/-! DEFINITION. The statements for the provers. Every statement is about the machine at its open configuration,
`Config.device`, which is known to obey the laws of 00_scope.md R9 and nothing else (notes/assumptions/1.md), and about
every value of the draw counter. -/

open Sys2Proof Sys2Proof.Machine

/-! ## Requests -/

/-- Decode and encode agree on every well-formed instruction (30_encoding.md R61, R63, R64, R67): no bit of an operand
is dropped. -/
def Obligations.DecodeEncode : Prop :=
  ∀ i : Instr, i.wellFormed = true → decode (encode i) = .ok i

/-- A request that decodes has exactly the word of its instruction: no other word runs it, so every must-be-zero bit
and every operand range is checked (30_encoding.md R61, R64, R65); its stream is the request's, and a `RECEIVE` came
from the transport. -/
def Obligations.DecodedWordIsEncoding : Prop :=
  ∀ (r : Request) (i : Instr), decode r = .ok i →
    i.wellFormed = true ∧ encodeWord i = r.word ∧ (i.op = .cksum ∨ i.op = .receive → encodeStream i = r.stream) ∧
    (i.op = .receive → r.agent = .transport)

/-- Worked encodings of 30_encoding.md R67 decode to what they stand for. -/
def Obligations.WorkedEncodings : Prop :=
  decodeTableWord 32 0x00000110 = some (.frameNew .current) ∧
  decodeTableWord 32 0x00000A03 = some (.build .summary) ∧
  decodeTableWord 32 0xD2000511 = some (.fbWrite 5 0xD2#8) ∧
  decodeTableWord 32 0x00010412 = some (.fbRead 260) ∧
  decodeTableWord 32 0x00001131 = some (.faultByName .romFail) ∧
  decodeTableWord 32 0x00400630 = some (.faultDecode .fullyCharged 0x40#8)

/-- A step runs the decoded instruction: the request at the head of what is to come decodes to `i`, and the step is
`exec i` on the state from which that request is taken; the block has no program counter (10_state.md R27), and the
list of what is to come is the model's (notes/assumptions/4.md). A `RECEIVE` passes the transport first: through an
open link it comes as it is, unless the buffer is allocated for another command than the one whose reply is awaited;
`UnopenedReceiveFails` and `BufferForAnotherStops` say what happens then. -/
def Obligations.StepRunsDecoded : Prop :=
  ∀ (s : State) (r : Request) (rest : List Input) (i : Instr), s.inputs = .request r :: rest → decode r = .ok i →
    (i.op = .receive → s.transport.opened = true ∧ bufferForAnother Config.device s = false) →
    step s = exec i (s.setInputs rest)

/-- The OP bytes of 30_encoding.md R65's list, and only those, complete with `ILLEGAL_OP` whatever the rest of the word,
the stream and the agent; nothing but the result file changes. -/
def Obligations.UnassignedOps : Prop :=
  ∀ (s : State) (r : Request) (rest : List Input), s.inputs = .request r :: rest →
    let op := r.word.toNat % 256
    (op = 0x00 ∨ (0x04 ≤ op ∧ op ≤ 0x0F) ∨ (0x16 ≤ op ∧ op ≤ 0x1F) ∨ (0x2D ≤ op ∧ op ≤ 0x2F) ∨ (0x33 ≤ op ∧ op ≤ 0xFF)) →
    step s = .next ((s.setInputs rest).setRes { Results.cleared with rstatus := 0x0E#8 })

/-- A set must-be-zero bit completes with `ILLEGAL_OP`, before any operand is looked at (30_encoding.md R61, R64): the
first field of each triple is the OP, the second the must-be-zero bits of its format. -/
def Obligations.MustBeZeroBits : Prop :=
  ∀ (s : State) (r : Request) (rest : List Input) (op : Nat) (mask : Word), s.inputs = .request r :: rest →
    (op, mask) ∈ ([(0x01, 0xFFFFFF00), (0x02, 0xFFFFF000), (0x03, 0xFFFFF000), (0x10, 0xFFFFF000), (0x11, 0x00FE0000),
      (0x12, 0xFFFE0000), (0x13, 0xFFFFFF00), (0x14, 0xFFFFFF00), (0x15, 0xFFFFFF00), (0x20, 0xFFFFFF00),
      (0x21, 0xFFFFFF00), (0x22, 0xFFFFFF00), (0x23, 0xFFFFFF00), (0x24, 0xFFFFFF00), (0x25, 0xFFFFFF00),
      (0x26, 0xFFFFFF00), (0x27, 0xFFFFFF00), (0x28, 0xFFFFFF00), (0x29, 0xFFFFFF00), (0x2A, 0xFFFFFF00),
      (0x2B, 0xFFFFFF00), (0x2C, 0xFFFFFF00), (0x30, 0xFF00E000), (0x31, 0xFFFFE000), (0x32, 0xFFFFFF00)] :
        List (Nat × Word)) →
    r.word.toNat % 256 = op → r.word &&& mask ≠ 0#32 →
    step s = .next ((s.setInputs rest).setRes { Results.cleared with rstatus := 0x0E#8 })

/-- CMD values 11 to 15 and FID values 24 to 31, in words whose must-be-zero bits are 0, complete with
`ILLEGAL_OPERAND` and change nothing else (30_encoding.md R64, R65): the words are written out from R61. -/
def Obligations.IllegalOperands : Prop :=
  ∀ (s : State) (r : Request) (rest : List Input), s.inputs = .request r :: rest →
    ((∃ op cmd, (op = 0x02 ∨ op = 0x03 ∨ op = 0x10) ∧ 11 ≤ cmd ∧ cmd ≤ 15 ∧ r.word = BitVec.ofNat 32 (op + 256 * cmd)) ∨
     (∃ fid, 24 ≤ fid ∧ fid ≤ 31 ∧ r.word = BitVec.ofNat 32 (0x31 + 256 * fid)) ∨
     (∃ fid byte, 24 ≤ fid ∧ fid ≤ 31 ∧ byte ≤ 255 ∧ r.word = BitVec.ofNat 32 (0x30 + 256 * fid + 65536 * byte))) →
    step s = .next ((s.setInputs rest).setRes { Results.cleared with rstatus := 0x0F#8 })

/-- A `RECEIVE` tagged as coming from the host completes with `ILLEGAL_OP` and changes nothing but the result file
(60_exceptions.md R229; 90_conflicts.md C11). -/
def Obligations.HostReceive : Prop :=
  ∀ (s : State) (r : Request) (rest : List Input), s.inputs = .request r :: rest → r.agent = .host →
    r.word.toNat % 256 = 0x13 →
    step s = .next ((s.setInputs rest).setRes { Results.cleared with rstatus := 0x0E#8 })

/-! ## Reset and the agents around the block -/

/-- What reset leaves (10_state.md R31; 70_reset_and_hazards.md R250). `TXB` is unspecified there. -/
def Obligations.ResetState : Prop :=
  State.reset.exp = none ∧ State.reset.expReg = 0xF#4 ∧ State.reset.flen Config.device = 0 ∧ State.reset.fb = [] ∧
  State.reset.txv = false ∧ State.reset.res = { Results.cleared with rstatus := 0xFF#8 }

/-- The reset line puts every piece of block state but the unspecified `TXB` to its reset value from every state, and
leaves the transport and what is to come alone (70_reset_and_hazards.md R250; notes/assumptions/15.md). -/
def Obligations.ResetInput : Prop :=
  ∀ (s : State) (rest : List Input), s.inputs = .reset :: rest →
    ∃ t, step s = .next t ∧ t.exp = none ∧ t.fb = [] ∧ t.txv = false ∧
      t.res = { Results.cleared with rstatus := 0xFF#8 } ∧ t.inputs = rest ∧ t.transport = s.transport

/-- A transport `SEND` while `TXV = 0` is a fault of the host (70_reset_and_hazards.md R256). -/
def Obligations.SendBeforeBuild : Prop :=
  ∀ (s : State) (ok : Bool) (rest : List Input), s.inputs = .transportSend ok :: rest → s.txv = false →
    step s = .fault .sendBeforeBuild

/-- A transport `SEND` of a built frame, with no reply awaited, reads `TXB` and writes no block state: the frame goes out
where it succeeds, and the outcome stays with the transport (60_exceptions.md R240); the fields that keep it are the
model's (notes/assumptions/7.md). -/
def Obligations.SendReadsTransmitBuffer : Prop :=
  ∀ (s : State) (ok : Bool) (rest : List Input), s.inputs = .transportSend ok :: rest → s.txv = true →
    s.transport.awaiting = false →
    ∃ t, step s = .next t ∧ t.exp = s.exp ∧ t.fb = s.fb ∧ t.txb = s.txb ∧ t.txv = s.txv ∧ t.res = s.res ∧
      t.inputs = rest ∧ t.draws = s.draws ∧
      t.transport.opened = s.transport.opened ∧ t.transport.awaiting = ok ∧
      (ok = true → t.transport.sent = s.txb :: s.transport.sent ∧ t.transport.status = 0x00#8) ∧
      (ok = false → t.transport.sent = s.transport.sent ∧ t.transport.status = 0x11#8)

/-- The model's choice for a host that interleaves exchanges, for which the spec has no move: a second `SEND` before the
reply has come stops the run (notes/assumptions/8.md; 93_implementation_defined.md I13). -/
def Obligations.InterleavedSendStops : Prop :=
  ∀ (s : State) (ok : Bool) (rest : List Input), s.inputs = .transportSend ok :: rest → s.txv = true →
    s.transport.awaiting = true → step s = .fault .interleavedExchange

/-- A `RECEIVE` from an unopened transport is a `RECEIVE_FAILED`, whatever its stream (70_reset_and_hazards.md R251):
`EXP` stays and every byte of the buffer is a draw (41_frame_buffer.md R123; 10_state.md R32); without a buffer it is
`NO_FRAME` (70 R257). Where the link's state and the awaited reply are kept, and the drawn values, are the model's
(notes/assumptions/2.md, 7.md, 8.md). -/
def Obligations.UnopenedReceiveFails : Prop :=
  ∀ (s : State) (r : Request) (rest : List Input) (st : Stream), s.inputs = .request r :: rest →
    decode r = .ok (.receive st) → s.transport.opened = false → bufferForAnother Config.device s = false →
    ∃ t, step s = .next t ∧ t.exp = s.exp ∧ t.txb = s.txb ∧ t.txv = s.txv ∧ t.inputs = rest ∧
      t.transport = { s.transport with awaiting := false } ∧ t.draws = s.draws + s.flen Config.device ∧
      (s.exp = none → t.res = { Results.cleared with rstatus := 0x05#8 } ∧ t.fb = s.fb) ∧
      (s.exp ≠ none → t.res = { Results.cleared with rstatus := 0x12#8 } ∧
        ∀ a, a < s.flen Config.device → t.fb.read a = Config.freeByte (s.draws + a))

/-- The model's choice for a host that allocates the buffer for another command than the one it sent, for which the
spec has no move: when the reply comes, the run stops, whatever the stream (notes/assumptions/8.md;
93_implementation_defined.md I13). With no reply awaited, or a buffer for the command sent, it does not. -/
def Obligations.BufferForAnotherStops : Prop :=
  ∀ (s : State) (r : Request) (rest : List Input) (st : Stream) (c : Command), s.inputs = .request r :: rest →
    decode r = .ok (.receive st) → s.exp = some c →
    (step s = .fault .bufferForAnotherCommand ↔
      s.transport.awaiting = true ∧ s.transport.sent.head? ≠ some (commandFrame Config.device c))

/-- `OPEN` touches no block state (60_exceptions.md R242); the field that keeps its outcome is the model's
(notes/assumptions/7.md). -/
def Obligations.OpenTouchesNoBlockState : Prop :=
  ∀ (s : State) (ok : Bool) (rest : List Input), s.inputs = .transportOpen ok :: rest →
    ∃ t, step s = .next t ∧ t.exp = s.exp ∧ t.fb = s.fb ∧ t.txb = s.txb ∧ t.txv = s.txv ∧ t.res = s.res ∧
      t.inputs = rest ∧ t.draws = s.draws ∧ t.transport.sent = s.transport.sent ∧
      t.transport.status = if ok = true then 0x00#8 else 0x10#8

/-- The step answers a next state on every input that host and transport may give while they keep their obligations
(60_exceptions.md R225, R243; 70_reset_and_hazards.md R251, R255, R256). What the obligations say of the link and of a
reply awaited is read off the model's own fields (notes/assumptions/7.md, 8.md). -/
def Obligations.ObeyedInputRuns : Prop :=
  ∀ (s : State) (inp : Input) (rest : List Input), s.inputs = inp :: rest →
    Obeys Config.device (s.setInputs rest) inp → ∃ t, step s = .next t

/-! ## Checksum, catalog, builder -/

/-- `CKSUM` (40_checksum_builder.md R101): `RVAL[7:0]` is the checksum of the stream, `RVAL[31:8]` is 0, and nothing but
the result file changes. -/
def Obligations.CksumResult : Prop :=
  ∀ (s : State) (bs : List Byte),
    exec (.cksum bs) s =
      .next (s.setRes { Results.cleared with rval := BitVec.ofNat 32 (Config.device.ck bs).toNat })

/-- `CMD_INFO` (40_checksum_builder.md R103): wire code and declared length of the command, whatever the state. -/
def Obligations.CmdInfoResult : Prop :=
  ∀ (s : State) (c : Command),
    exec (.cmdInfo c) s = .next (s.setRes { Results.cleared with
      rval := BitVec.ofNat 32 ((Config.device.code c).toNat + 256 * (Config.device.len c).toNat) })

/-- `BUILD` (40_checksum_builder.md R104; 30_encoding.md R68): the five bytes of the command frame in `TXB` and in
`RBYTES[0..4]`, `TXV` set, and `EXP`, `FB` and all else as before. -/
def Obligations.BuildResult : Prop :=
  ∀ (s : State) (c : Command), ∃ t,
    exec (.build c) s = .next t ∧
    t.txb.toList = [0x05#8, 0x01#8, Config.device.code c, 0x00#8,
      Config.device.ck [0x05#8, 0x01#8, Config.device.code c, 0x00#8]] ∧
    t.txv = true ∧
    t.res = { Results.cleared with rlen := 5#16, rbytes := t.txb.toList } ∧
    t.exp = s.exp ∧ t.fb = s.fb ∧ t.inputs = s.inputs ∧ t.transport = s.transport ∧ t.draws = s.draws

/-- The build precondition (40_checksum_builder.md R105): in a configuration where a command carries request
parameters, which law R9 (d) rules out for an admissible one, `BUILD` raises `BUILD_UNSUPPORTED` with `RACT` the
command and leaves `TXB`, `TXV` and all else unchanged; in an admissible configuration it never raises. -/
def Obligations.BuildPrecondition : Prop :=
  (∀ (cfg : Config) (c : Command) (s : State), cfg.reqLen c ≠ 0 →
    runBuild cfg c s = s.setRes { Results.cleared with rstatus := 0x07#8, ract := BitVec.ofNat 8 c.index }) ∧
  (∀ (cfg : Config) (c : Command) (s : State), cfg.Admissible → (runBuild cfg c s).res.rstatus = 0x00#8)

/-! ## Frame buffer -/

/-- The length of the frame buffer is a function of `EXP` (10_state.md R23), between 7 and 261 whenever a frame
exists. -/
def Obligations.FrameLength : Prop :=
  (∀ (s : State) (c : Command), s.exp = some c →
    s.flen Config.device = 6 + (Config.device.len c).toNat ∧ 7 ≤ s.flen Config.device ∧ s.flen Config.device ≤ 261) ∧
  (∀ s : State, s.exp = none → s.flen Config.device = 0)

/-- `FRAME_NEW` (41_frame_buffer.md R120, R129): the command is expected, every byte of the buffer is zero, the old
frame's bytes are gone, `TXB`, `TXV` and all else as before; and the new buffer fails validation rule 1. -/
def Obligations.FrameNewResult : Prop :=
  ∀ (s : State) (c : Command), ∃ t,
    exec (.frameNew c) s = .next t ∧ t.exp = some c ∧ (∀ a, t.fb.read a = 0x00#8) ∧
    t.flen Config.device = 6 + (Config.device.len c).toNat ∧ t.res = Results.cleared ∧
    t.txb = s.txb ∧ t.txv = s.txv ∧ t.inputs = s.inputs ∧ t.transport = s.transport ∧ t.draws = s.draws ∧
    exec .validate t = .next (t.setRes { Results.cleared with rstatus := 0x01#8, rrule := 1#8, rexp := 0x02#8 })

/-- `FB_WRITE` inside the buffer (41_frame_buffer.md R121): that byte is written, every other byte of the buffer and all
else is as before, and the write validates nothing. -/
def Obligations.FbWriteResult : Prop :=
  ∀ (s : State) (c : Command) (index : Nat) (b : Byte), s.exp = some c → index < 6 + (Config.device.len c).toNat →
    ∃ t, exec (.fbWrite index b) s = .next t ∧ t.fb.read index = b ∧ (∀ a, a ≠ index → t.fb.read a = s.fb.read a) ∧
      t.res = Results.cleared ∧ t.exp = s.exp ∧ t.txb = s.txb ∧ t.txv = s.txv ∧ t.inputs = s.inputs ∧
      t.transport = s.transport ∧ t.draws = s.draws

/-- `FB_READ` inside the buffer (41_frame_buffer.md R122): the byte, zero-extended, and no side effect. -/
def Obligations.FbReadResult : Prop :=
  ∀ (s : State) (c : Command) (index : Nat), s.exp = some c → index < 6 + (Config.device.len c).toNat →
    exec (.fbRead index) s = .next (s.setRes { Results.cleared with rval := BitVec.ofNat 32 (s.fb.read index).toNat })

/-- `FB_WRITE` and `FB_READ` at or past the end of the buffer complete with `INDEX_RANGE`, the index and the length, and
change nothing else (41_frame_buffer.md R121, R122; 20_memory.md R50). -/
def Obligations.IndexRange : Prop :=
  ∀ (s : State) (c : Command) (index : Nat) (b : Byte), s.exp = some c → 6 + (Config.device.len c).toNat ≤ index →
    index ≤ 511 →
    ∃ t, exec (.fbWrite index b) s = .next t ∧ exec (.fbRead index) s = .next t ∧ t = s.setRes t.res ∧
      t.res = { Results.cleared with rstatus := 0x06#8, rneed := t.res.rneed, ravail := t.res.ravail } ∧
      t.res.rneed.toNat = index ∧ t.res.ravail.toNat = 6 + (Config.device.len c).toNat

/-- `RECEIVE` of exactly `FLEN` bytes (41_frame_buffer.md R123): the buffer holds those bytes, nothing is validated, and
`EXP`, `TXB`, `TXV` are as before; that the transport no longer awaits a reply is the model's (notes/assumptions/8.md). -/
def Obligations.ReceiveResult : Prop :=
  ∀ (s : State) (c : Command) (bs : List Byte), s.exp = some c → bs.length = 6 + (Config.device.len c).toNat →
    ∃ t, exec (.receive (.bytes bs)) s = .next t ∧ t.fb.readBytes 0 bs.length = bs ∧ t.res = Results.cleared ∧
      t.exp = s.exp ∧ t.txb = s.txb ∧ t.txv = s.txv ∧ t.inputs = s.inputs ∧ t.draws = s.draws ∧
      t.transport = { s.transport with awaiting := false }

/-- A failed `RECEIVE`, by `FAIL` or by a stream of the wrong length, completes with `RECEIVE_FAILED`, keeps `EXP`, and
leaves every byte of the buffer a draw (41_frame_buffer.md R123; 10_state.md R32). The drawn values are the model's
free values from the draw counter on (notes/assumptions/2.md), and what is kept of the transport is the model's
(notes/assumptions/8.md). -/
def Obligations.ReceiveFailed : Prop :=
  ∀ (s : State) (c : Command) (st : Stream), s.exp = some c →
    (∀ bs, st = .bytes bs → bs.length ≠ 6 + (Config.device.len c).toNat) →
    ∃ t, exec (.receive st) s = .next t ∧ t.res = { Results.cleared with rstatus := 0x12#8 } ∧ t.exp = some c ∧
      (∀ a, a < 6 + (Config.device.len c).toNat → t.fb.read a = Config.freeByte (s.draws + a)) ∧
      t.draws = s.draws + (6 + (Config.device.len c).toNat) ∧ t.txb = s.txb ∧ t.txv = s.txv ∧ t.inputs = s.inputs ∧
      t.transport = { s.transport with awaiting := false }

/-- A `RECEIVE` while `EXP = NONE` completes with `NO_FRAME` and stores nothing, whatever the stream
(70_reset_and_hazards.md R257). -/
def Obligations.ReceiveWithoutBuffer : Prop :=
  ∀ (s : State) (st : Stream), s.exp = none →
    ∃ t, exec (.receive st) s = .next t ∧ t.res = { Results.cleared with rstatus := 0x05#8 } ∧ t.exp = none ∧
      t.fb = s.fb ∧ t.txb = s.txb ∧ t.txv = s.txv ∧ t.inputs = s.inputs ∧ t.draws = s.draws

/-- `VALIDATE` (41_frame_buffer.md R124, R125): the five rules in this exact order, the first failure reported with its
number, the expected and the received byte; `OK` on a frame that keeps all five; nothing but the result file changes. -/
def Obligations.ValidateResult : Prop :=
  ∀ (s : State) (c : Command), s.exp = some c →
    let len := Config.device.len c
    let k := Config.device.ck (s.fb.readBytes 0 (4 + len.toNat))
    let failing (rule : Nat) (expected received : Byte) : Results :=
      { Results.cleared with rstatus := 0x01#8, rrule := BitVec.ofNat 8 rule, rexp := expected, rrcv := received }
    exec .validate s = .next (s.setRes (
      if s.fb.read 0 ≠ 0x02#8 then failing 1 0x02#8 (s.fb.read 0)
      else if s.fb.read 1 ≠ 0x01#8 then failing 2 0x01#8 (s.fb.read 1)
      else if s.fb.read 2 ≠ Config.device.code c then failing 3 (Config.device.code c) (s.fb.read 2)
      else if s.fb.read 3 ≠ len then failing 4 len (s.fb.read 3)
      else if s.fb.read (4 + len.toNat) ≠ k then failing 5 k (s.fb.read (4 + len.toNat))
      else Results.cleared))

/-- Every single-bit flip of a valid frame is found (40_checksum_builder.md R102; 90_conflicts.md C1): after an
`FB_WRITE` that inverts one bit of any byte up to and with the checksum byte, `VALIDATE` completes with
`INVALID_FRAME`, and reports rule `n + 1` for a flip in byte `n` of the header and rule 5 for a flip in the payload
or in the checksum byte. A flip in the reserved byte leaves the frame valid (30_encoding.md R71; 90_conflicts.md
C4). -/
def Obligations.SingleBitFlips : Prop :=
  ∀ (s t : State) (c : Command) (n b : Nat), ValidFrame Config.device s c → n < 6 + (Config.device.len c).toNat → b < 8 →
    exec (.fbWrite n (s.fb.read n ^^^ BitVec.twoPow 8 b)) s = .next t →
    ∃ u, exec .validate t = .next u ∧
      (n < 4 → u.res.rstatus = 0x01#8 ∧ u.res.rrule = BitVec.ofNat 8 (n + 1) ∧ u.res.rexp = s.fb.read n) ∧
      (4 ≤ n → n ≤ 4 + (Config.device.len c).toNat → u.res.rstatus = 0x01#8 ∧ u.res.rrule = 5#8) ∧
      (n = 5 + (Config.device.len c).toNat → u.res = Results.cleared)

/-- Scenario B (95_test_vectors.md S7; 00_scope.md R9 (g)): the Scenario A frame with checksum byte 0xFF fails rule 5,
for `VALIDATE` and for `GET_CURRENT` alike. -/
def Obligations.ScenarioB : Prop :=
  ∀ s : State, s.exp = some .current →
    s.fb.readBytes 0 7 = [0x02#8, 0x01#8, Config.device.code .current, 0x02#8, 0x04#8, 0xD2#8, 0xFF#8] →
    ∃ t, exec .validate s = .next t ∧ exec .getCurrent s = .next t ∧
      t = s.setRes { Results.cleared with
        rstatus := 0x01#8, rrule := 5#8, rrcv := 0xFF#8
        rexp := Config.device.ck [0x02#8, 0x01#8, Config.device.code .current, 0x02#8, 0x04#8, 0xD2#8] }

/-- `PAYLOAD` (41_frame_buffer.md R127): the `LEN[EXP]` bytes from index 4, valid frame or not, whatever `FB[3]` holds;
nothing but the result file changes. -/
def Obligations.PayloadResult : Prop :=
  ∀ (s : State) (c : Command), s.exp = some c →
    ∃ t, exec .payload s = .next t ∧ t = s.setRes t.res ∧
      t.res = { Results.cleared with rlen := t.res.rlen, rbytes := t.res.rbytes } ∧
      t.res.rlen.toNat = (Config.device.len c).toNat ∧
      (∀ i, i < (Config.device.len c).toNat → t.res.rbyte i = s.fb.read (4 + i)) ∧
      (∀ i, (Config.device.len c).toNat ≤ i → t.res.rbyte i = 0x00#8)

/-! ## Field extractor -/

/-- Big-endian decoding (00_scope.md R12): the two bytes as one 16-bit value, the first the more significant, unsigned
or two's complement; with the source's examples. -/
def Obligations.BigEndianDecode : Prop :=
  (∀ b0 b1 : Byte, beU16 b0 b1 = (b0 ++ b1).toNat ∧ beS16 b0 b1 = (b0 ++ b1).toInt) ∧
  beU16 0x87 0x16 = 34582 ∧ beS16 0x87 0x16 = -30954 ∧ beU16 0xFF 0xFF = 65535 ∧ beS16 0xFF 0xFF = -1

/-- The mask of each quantity's valid source set is the one 42_field_extractor.md R153 prints, in every
configuration. -/
def Obligations.ValidSourceMasks : Prop :=
  ∀ cfg : Config,
    [Quantity.cellVoltages, .current, .temperature, .remainingCapacity, .designCapacity, .fullChargeCapacity,
      .absoluteSoc, .relativeSoc, .stateOfHealth, .moduleVoltage, .failStatus1, .failStatus2, .failStatus3].map
        (fun q => commandMask (validSources cfg q)) =
    [0x0201#16, 0x0602#16, 0x0604#16, 0x0608#16, 0x0610#16, 0x0620#16, 0x0600#16, 0x0600#16, 0x0640#16, 0x0600#16,
      0x0680#16, 0x0700#16, 0x0400#16]

/-- An accessor on a valid frame of a command that is no source of its quantity completes with `NO_APPROPRIATE_DATA`,
the active command and the mask of the commands that would have worked, and changes nothing else
(42_field_extractor.md R150, R153; 90_conflicts.md C2). -/
def Obligations.NoAppropriateData : Prop :=
  ∀ (s : State) (c : Command) (i : Instr) (mask : Half), ValidFrame Config.device s c → (i, mask) ∈ accessorMasks →
    mask.getLsbD c.index = false →
    exec i s = .next (s.setRes { Results.cleared with rstatus := 0x02#8, ract := BitVec.ofNat 8 c.index, rvalid := mask })

/-- Every accessor and both frame-reading fault operations validate the buffer as it stands and, on a frame that is not
valid, do exactly what `VALIDATE` does: `NO_FRAME`, or `INVALID_FRAME` before any other check (41_frame_buffer.md
R126; 42_field_extractor.md R150, R159; 90_conflicts.md C7). -/
def Obligations.InvalidFrameFirst : Prop :=
  ∀ (s : State) (i : Instr), validatesFirst i → (∀ c, ¬ ValidFrame Config.device s c) →
    exec i s = exec .validate s ∧
    ∃ t, exec i s = .next t ∧ t = s.setRes t.res ∧
      (s.exp = none → t.res.rstatus = 0x05#8) ∧ (s.exp ≠ none → t.res.rstatus = 0x01#8)

/-- Every operation that needs the frame buffer completes with `NO_FRAME` when `EXP = NONE` (60_exceptions.md R222), and
this happens only between reset and the first `FRAME_NEW`: `FRAME_NEW` makes `EXP` a command; while it is one, no
operation reports `NO_FRAME`, and every input but reset leaves it one. -/
def Obligations.NoFrame : Prop :=
  (∀ (s : State) (i : Instr), needsFrame i → s.exp = none →
    ∃ t, exec i s = .next t ∧ t.res = { Results.cleared with rstatus := 0x05#8 } ∧ t.exp = none ∧ t.fb = s.fb) ∧
  (∀ (s : State) (c : Command), ∃ t, exec (.frameNew c) s = .next t ∧ t.exp = some c ∧ t.res.rstatus = 0x00#8) ∧
  (∀ (s t : State) (i : Instr), s.exp ≠ none → exec i s = .next t → t.exp ≠ none ∧ t.res.rstatus ≠ 0x05#8) ∧
  (∀ s t : State, s.exp ≠ none → s.inputs.head? ≠ some .reset → step s = .next t →
    t.exp ≠ none ∧ (t.res.rstatus ≠ 0x05#8 ∨ t.res = s.res))

/-- `GET_CELL_VOLTAGES` (42_field_extractor.md R160): the eight cells of the window, in wire order, big-endian. -/
def Obligations.CellVoltagesResult : Prop :=
  ∀ s : State,
    (ValidFrame Config.device s .cellVoltage → ∃ t, exec .getCellVoltages s = .next t ∧ t = s.setRes t.res ∧
      t.res = { Results.cleared with rvec := t.res.rvec } ∧
      ∀ i : Fin 8, t.res.rvec[i] = s.fb.read (4 + 2 * i.val) ++ s.fb.read (5 + 2 * i.val)) ∧
    (ValidFrame Config.device s .moduleInformation → ∃ t, exec .getCellVoltages s = .next t ∧
      if Config.device.mi.cellV.toNat + 16 ≤ (Config.device.len .moduleInformation).toNat then
        t = s.setRes t.res ∧ t.res = { Results.cleared with rvec := t.res.rvec } ∧
        ∀ i : Fin 8, t.res.rvec[i] = s.fb.read (4 + Config.device.mi.cellV.toNat + 2 * i.val) ++
          s.fb.read (5 + Config.device.mi.cellV.toNat + 2 * i.val)
      else ReportsShortage 0 (Config.device.mi.cellV.toNat + 16) (Config.device.len .moduleInformation).toNat s t)

/-- `GET_CURRENT` (42_field_extractor.md R161): the signed word, x1 on the dedicated command and x10 on `MI` and `SU`. -/
def Obligations.CurrentResult : Prop :=
  ∀ s : State,
    (ValidFrame Config.device s .current → ∃ t, exec .getCurrent s = .next t ∧
      t = s.setRes { Results.cleared with rval := (s.fb.read 4 ++ s.fb.read 5).signExtend 32 }) ∧
    (ValidFrame Config.device s .moduleInformation → ∃ t, exec .getCurrent s = .next t ∧
      ReportsWindow Config.device .moduleInformation 1 Config.device.mi.current.toNat 2 (-32768) 32767
        (10 * beS16 (s.fb.read (4 + Config.device.mi.current.toNat)) (s.fb.read (5 + Config.device.mi.current.toNat))) s t) ∧
    (ValidFrame Config.device s .summary → ∃ t, exec .getCurrent s = .next t ∧
      ReportsWindow Config.device .summary 1 Config.device.su.current.toNat 2 (-32768) 32767
        (10 * beS16 (s.fb.read (4 + Config.device.su.current.toNat)) (s.fb.read (5 + Config.device.su.current.toNat))) s t)

/-- `GET_TEMPERATURE` (42_field_extractor.md R156, R162): the word in units of 0.1 degC, signed as `TEMP_SIGNED` says; x10
only on the dedicated command under `UNIT`; the summary's "max" slot. -/
def Obligations.TemperatureResult : Prop :=
  ∀ s : State,
    let word (a : Nat) : Int :=
      if Config.device.tempSigned = true then beS16 (s.fb.read a) (s.fb.read (a + 1)) else beU16 (s.fb.read a) (s.fb.read (a + 1))
    (ValidFrame Config.device s .temperature → ∃ t, exec .getTemperature s = .next t ∧
      ReportsScalar Config.device s32Min s32Max
        (if Config.device.tempDedScale = .unit then 10 * word 4 else word 4) s t) ∧
    (ValidFrame Config.device s .moduleInformation → ∃ t, exec .getTemperature s = .next t ∧
      ReportsWindow Config.device .moduleInformation 2 Config.device.mi.temp.toNat 2 s32Min s32Max
        (word (4 + Config.device.mi.temp.toNat)) s t) ∧
    (ValidFrame Config.device s .summary → ∃ t, exec .getTemperature s = .next t ∧
      ReportsWindow Config.device .summary 2 Config.device.su.tempMax.toNat 2 s32Min s32Max
        (word (4 + Config.device.su.tempMax.toNat)) s t)

/-- The three capacities (42_field_extractor.md R163, R164, R165): the unsigned word, x1 on the dedicated command and
`MI`, x10 on `SU`. Each row: the operation, its quantity id, its dedicated command, its `MI` and `SU` offsets. -/
def Obligations.CapacityResults : Prop :=
  ∀ (s : State) (i : Instr) (q : Nat) (ded : Command) (mi su : Byte),
    (i, q, ded, mi, su) ∈ [
      (Instr.getRemainingCapacity, 3, Command.remainingCapacity, Config.device.mi.remCap, Config.device.su.remCap),
      (Instr.getDesignCapacity, 4, Command.designCapacity, Config.device.mi.desCap, Config.device.su.desCap),
      (Instr.getFullChargeCapacity, 5, Command.fullChargeCapacity, Config.device.mi.fcCap, Config.device.su.fcCap)] →
    (ValidFrame Config.device s ded → ∃ t, exec i s = .next t ∧
      ReportsWindow Config.device ded q 0 2 0 65535 (beU16 (s.fb.read 4) (s.fb.read 5)) s t) ∧
    (ValidFrame Config.device s .moduleInformation → ∃ t, exec i s = .next t ∧
      ReportsWindow Config.device .moduleInformation q mi.toNat 2 0 65535
        (beU16 (s.fb.read (4 + mi.toNat)) (s.fb.read (5 + mi.toNat))) s t) ∧
    (ValidFrame Config.device s .summary → ∃ t, exec i s = .next t ∧
      ReportsWindow Config.device .summary q su.toNat 2 0 65535
        (10 * beU16 (s.fb.read (4 + su.toNat)) (s.fb.read (5 + su.toNat))) s t)

/-- `GET_ABSOLUTE_SOC` (42_field_extractor.md R158, R159, R166): on `MI`, the remaining and then the design window, then
the division by zero, then `ABS_SOC_FN` of the raw capacities; on `SU`, the raw byte. -/
def Obligations.AbsoluteSocResult : Prop :=
  ∀ s : State,
    let len := (Config.device.len .moduleInformation).toNat
    let ro := Config.device.mi.remCap.toNat
    let dof := Config.device.mi.desCap.toNat
    let rem := beU16 (s.fb.read (4 + ro)) (s.fb.read (5 + ro))
    let des := beU16 (s.fb.read (4 + dof)) (s.fb.read (5 + dof))
    (ValidFrame Config.device s .moduleInformation → ∃ t, exec .getAbsoluteSoc s = .next t ∧
      if len < ro + 2 then ReportsShortage 3 (ro + 2) len s t
      else if len < dof + 2 then ReportsShortage 4 (dof + 2) len s t
      else if des = 0 then t = s.setRes { Results.cleared with rstatus := 0x04#8, rqty := 6#8 }
      else ReportsScalar Config.device 0 255 (Config.device.absSocFn rem des) s t) ∧
    (ValidFrame Config.device s .summary → ∃ t, exec .getAbsoluteSoc s = .next t ∧
      ReportsWindow Config.device .summary 6 Config.device.su.absSoc.toNat 1 0 255
        (s.fb.read (4 + Config.device.su.absSoc.toNat)).toNat s t)

/-- `GET_RELATIVE_SOC` (42_field_extractor.md R158, R159, R167): on `MI`, the truncating division of 100 times the
remaining by the full charge capacity, with the same order of checks; on `SU`, the raw byte. -/
def Obligations.RelativeSocResult : Prop :=
  ∀ s : State,
    let len := (Config.device.len .moduleInformation).toNat
    let ro := Config.device.mi.remCap.toNat
    let fo := Config.device.mi.fcCap.toNat
    let rem := beU16 (s.fb.read (4 + ro)) (s.fb.read (5 + ro))
    let full := beU16 (s.fb.read (4 + fo)) (s.fb.read (5 + fo))
    (ValidFrame Config.device s .moduleInformation → ∃ t, exec .getRelativeSoc s = .next t ∧
      if len < ro + 2 then ReportsShortage 3 (ro + 2) len s t
      else if len < fo + 2 then ReportsShortage 5 (fo + 2) len s t
      else if full = 0 then t = s.setRes { Results.cleared with rstatus := 0x04#8, rqty := 7#8 }
      else ReportsScalar Config.device 0 255 ((100 * rem / full : Nat) : Int) s t) ∧
    (ValidFrame Config.device s .summary → ∃ t, exec .getRelativeSoc s = .next t ∧
      ReportsWindow Config.device .summary 7 Config.device.su.relSoc.toNat 1 0 255
        (s.fb.read (4 + Config.device.su.relSoc.toNat)).toNat s t)

/-- The default of `ABS_SOC_FN` is the exact quotient rounded half up, unclamped (42_field_extractor.md R157): the
result `v` is the one integer with `2 * v * des - des ≤ 200 * rem < 2 * v * des + des`. -/
def Obligations.AbsoluteSocDefault : Prop :=
  ∀ rem des : Nat, des ≠ 0 → ∀ v : Int,
    Config.absSocDefault rem des = v ↔
      2 * v * (des : Int) - des ≤ 200 * (rem : Int) ∧ 200 * (rem : Int) < 2 * v * des + des

/-- The one-byte quantities (42_field_extractor.md R168, R170, R171): the raw byte, unclamped. Each row: the operation, its
quantity id, its dedicated command, its `MI` and `SU` offsets. -/
def Obligations.ByteResults : Prop :=
  ∀ (s : State) (i : Instr) (q : Nat) (ded : Command) (mi su : Byte),
    (i, q, ded, mi, su) ∈ [
      (Instr.getStateOfHealth, 8, Command.stateOfHealth, Config.device.mi.soh, Config.device.su.soh),
      (Instr.getFailStatus1, 10, Command.failStatus1, Config.device.mi.fs1, Config.device.su.fs1),
      (Instr.getFailStatus2, 11, Command.failStatus2, Config.device.mi.fs2, Config.device.su.fs2)] →
    (ValidFrame Config.device s ded →
      exec i s = .next (s.setRes { Results.cleared with rval := (s.fb.read 4).setWidth 32 })) ∧
    (ValidFrame Config.device s .moduleInformation → ∃ t, exec i s = .next t ∧
      ReportsWindow Config.device .moduleInformation q mi.toNat 1 s32Min s32Max (s.fb.read (4 + mi.toNat)).toNat s t) ∧
    (ValidFrame Config.device s .summary → ∃ t, exec i s = .next t ∧
      ReportsWindow Config.device .summary q su.toNat 1 s32Min s32Max (s.fb.read (4 + su.toNat)).toNat s t)

/-- `GET_FAIL_STATUS_3` (42_field_extractor.md R172): the raw byte of a summary frame. -/
def Obligations.FailStatus3Result : Prop :=
  ∀ s : State, ValidFrame Config.device s .summary → ∃ t, exec .getFailStatus3 s = .next t ∧
    ReportsWindow Config.device .summary 12 Config.device.su.fs3.toNat 1 s32Min s32Max
      (s.fb.read (4 + Config.device.su.fs3.toNat)).toNat s t

/-- `GET_MODULE_VOLTAGE` (42_field_extractor.md R169): on `MI` the sum of the eight cells, a shortage naming quantity 0; on
`SU` the unsigned word. -/
def Obligations.ModuleVoltageResult : Prop :=
  ∀ s : State,
    let cell (i : Nat) : Nat :=
      beU16 (s.fb.read (4 + Config.device.mi.cellV.toNat + 2 * i)) (s.fb.read (5 + Config.device.mi.cellV.toNat + 2 * i))
    (ValidFrame Config.device s .moduleInformation → ∃ t, exec .getModuleVoltage s = .next t ∧
      ReportsWindow Config.device .moduleInformation 0 Config.device.mi.cellV.toNat 16 0 65535
        (((List.range 8).map cell).sum : Nat) s t) ∧
    (ValidFrame Config.device s .summary → ∃ t, exec .getModuleVoltage s = .next t ∧
      ReportsWindow Config.device .summary 9 Config.device.su.modV.toNat 2 0 65535
        (beU16 (s.fb.read (4 + Config.device.su.modV.toNat)) (s.fb.read (5 + Config.device.su.modV.toNat))) s t)

/-! ## Fault decoder -/

/-- `FAULT_DECODE` (43_fault_decoder.md R202, R205): the state of the fault's own bit of the raw byte, with no frame
needed and nothing but the result file changed. That bit 0 is the least significant one is R11's, from general
knowledge (notes/assumptions/14.md). -/
def Obligations.FaultDecodeResult : Prop :=
  ∀ (s : State) (f : FaultId) (x : Byte),
    exec (.faultDecode f x) s =
      .next (s.setRes { Results.cleared with rval := BitVec.ofNat 32 (bitState (some x) (f.fid % 8)) })

/-- `FAULT_BY_NAME` (43_fault_decoder.md R203, R206): on a valid frame the state of the fault's bit in the register byte
the frame carries, Unknown with status `OK` where it carries none. Bit 0 is the least significant one (notes/assumptions/14.md). -/
def Obligations.FaultByNameResult : Prop :=
  ∀ (s : State) (c : Command) (f : FaultId), ValidFrame Config.device s c →
    exec (.faultByName f) s = .next (s.setRes { Results.cleared with
      rval := BitVec.ofNat 32 (bitState (carriedRegister Config.device s.fb (f.fid / 8 + 1) c) (f.fid % 8)) })

/-- `FAULT_ITER` (43_fault_decoder.md R204): all 24 states in fault-id order, each the one `FAULT_BY_NAME` reports on the
same frame. Bit 0 is the least significant one (notes/assumptions/14.md). -/
def Obligations.FaultIterResult : Prop :=
  ∀ (s : State) (c : Command), ValidFrame Config.device s c →
    ∃ t, exec .faultIter s = .next t ∧ t = s.setRes t.res ∧
      t.res = { Results.cleared with rfault := t.res.rfault } ∧
      (∀ i : Fin 24, t.res.rfault[i] =
        BitVec.ofNat 2 (bitState (carriedRegister Config.device s.fb (i.val / 8 + 1) c) (i.val % 8))) ∧
      ∀ (f : FaultId) (h : f.fid < 24), ∃ u, exec (.faultByName f) s = .next u ∧
        u.res.rval.toNat = (t.res.rfault[f.fid]'h).toNat

/-! ## Whole-machine rules -/

/-- Result clearing (10_state.md R25): after any operation, error or not, every result register that the operation's rule
does not name reads 0. -/
def Obligations.ResultClearing : Prop :=
  ∀ (s t : State) (i : Instr), exec i s = .next t →
    (t.res.rstatus ≠ 0x01#8 → t.res.rrule = 0 ∧ t.res.rexp = 0 ∧ t.res.rrcv = 0) ∧
    (t.res.rstatus ≠ 0x02#8 → t.res.ract = 0 ∧ t.res.rvalid = 0) ∧
    (t.res.rstatus ≠ 0x03#8 → t.res.rstatus ≠ 0x04#8 → t.res.rqty = 0) ∧
    (t.res.rstatus ≠ 0x03#8 → t.res.rstatus ≠ 0x06#8 → t.res.rneed = 0 ∧ t.res.ravail = 0) ∧
    (t.res.rstatus ≠ 0x00#8 ∨ i.op ∈ [Op.build, .frameNew, .fbWrite, .receive, .validate, .payload, .getCellVoltages,
      .faultIter] → t.res.rval = 0) ∧
    (t.res.rstatus ≠ 0x00#8 ∨ i.op ≠ .getCellVoltages → t.res.rvec = Vector.replicate 8 0) ∧
    (t.res.rstatus ≠ 0x00#8 ∨ i.op ∉ [Op.build, .payload] → t.res.rlen = 0 ∧ t.res.rbytes = []) ∧
    (t.res.rstatus ≠ 0x00#8 ∨ i.op ≠ .faultIter → t.res.rfault = Vector.replicate 24 0)

/-- An operation that raises leaves `EXP`, `FB`, `TXB` and `TXV` exactly as they were; the one exception is
`RECEIVE_FAILED`, which draws `FB` (60_exceptions.md R221). -/
def Obligations.ErrorsChangeNothing : Prop :=
  ∀ (s t : State) (i : Instr), exec i s = .next t → t.res.rstatus ≠ 0x00#8 →
    t.exp = s.exp ∧ t.txb = s.txb ∧ t.txv = s.txv ∧ (t.res.rstatus ≠ 0x12#8 → t.fb = s.fb)

/-- Only `FRAME_NEW` writes `EXP`, only `FRAME_NEW`, `FB_WRITE` and `RECEIVE` write `FB`, only `BUILD` writes `TXB` and
`TXV` (10_state.md R21, R22, R26), and no operation but `RECEIVE` touches what is kept of the transport; none touches
what is to come. -/
def Obligations.WritersOfState : Prop :=
  ∀ (s t : State) (i : Instr), exec i s = .next t →
    (i.op ≠ .frameNew → t.exp = s.exp) ∧
    (i.op ≠ .frameNew → i.op ≠ .fbWrite → i.op ≠ .receive → t.fb = s.fb) ∧
    (i.op ≠ .build → t.txb = s.txb ∧ t.txv = s.txv) ∧
    (i.op ≠ .receive → t.transport = s.transport) ∧ t.inputs = s.inputs

/-- Every operation completes with one of the statuses its rule lists; none is `NONE`, 0xFF, which only reset leaves
(60_exceptions.md R220). -/
def Obligations.StatusesAreListed : Prop :=
  ∀ (s : State) (i : Instr), ∃ t, exec i s = .next t ∧ t.res.rstatus ∈ listedStatuses i

/-- No hidden or cached state (10_state.md R28, R30): what an operation reports and leaves in `EXP` and `FB` depends on
`EXP`, `FB` and the draws to come alone; not on `TXB`, `TXV`, earlier results, the transport or what is to come. -/
def Obligations.NoHiddenState : Prop :=
  ∀ (s s' t t' : State) (i : Instr), s.exp = s'.exp → s.fb = s'.fb → s.draws = s'.draws →
    exec i s = .next t → exec i s' = .next t' →
    t.res = t'.res ∧ t.exp = t'.exp ∧ t.fb = t'.fb ∧ t.draws = t'.draws

/-- Reads are idempotent (20_memory.md R45): an operation other than `FRAME_NEW`, `FB_WRITE` and `RECEIVE` that took no
draw, done again, changes nothing, its results included. (A result that is a draw is free again: R154, `ANY`;
notes/assumptions/13.md.) -/
def Obligations.ReadsAreIdempotent : Prop :=
  ∀ (s t : State) (i : Instr), i.op ≠ .frameNew → i.op ≠ .fbWrite → i.op ≠ .receive →
    exec i s = .next t → t.draws = s.draws → exec i t = .next t

/-- The state after reset is legal. -/
def Obligations.ResetIsLegal : Prop := Legal Config.device State.reset

/-- Every step keeps the state legal, from every legal state, whatever the input: the frame buffer keeps its canonical
form and stays inside `FB[0 .. FLEN)`, a valid `TXB` is some command's frame, and no code is written that the spec
says is never written (10_state.md R22, R23, R24, R26; 43_fault_decoder.md R200; 60_exceptions.md R220). -/
def Obligations.StepKeepsLegal : Prop :=
  ∀ s t : State, Legal Config.device s → step s = .next t → Legal Config.device t

/-- What the transport sends is a command frame of the catalog with its right checksum: where `TXB` is such a frame
whenever `TXV` is set, and every frame sent so far is one, every step leaves it so, whatever the input (20_memory.md
R47; 60_exceptions.md R240; 70_reset_and_hazards.md R256). The list of what was sent is the model's
(notes/assumptions/7.md). -/
def Obligations.OnlyCommandFramesAreSent : Prop :=
  ∀ s t : State, TransmitLegal Config.device s →
    (∀ frame ∈ s.transport.sent, ∃ c, frame = commandFrame Config.device c) → step s = .next t →
    TransmitLegal Config.device t ∧ ∀ frame ∈ t.transport.sent, ∃ c, frame = commandFrame Config.device c
end

