-- ==== Sys2Proof/Laws/State.lean ====
section
/-! SUPPORT. One lemma per field per update of the state, each true by rfl, so that no proof unfolds an update. -/

namespace Sys2Proof.Machine

@[simp] theorem State.setExp_exp (s : State) (x : Option Command) : (s.setExp x).exp = x := rfl
@[simp] theorem State.setExp_fb (s : State) (x : Option Command) : (s.setExp x).fb = s.fb := rfl
@[simp] theorem State.setExp_txb (s : State) (x : Option Command) : (s.setExp x).txb = s.txb := rfl
@[simp] theorem State.setExp_txv (s : State) (x : Option Command) : (s.setExp x).txv = s.txv := rfl
@[simp] theorem State.setExp_res (s : State) (x : Option Command) : (s.setExp x).res = s.res := rfl
@[simp] theorem State.setExp_inputs (s : State) (x : Option Command) : (s.setExp x).inputs = s.inputs := rfl
@[simp] theorem State.setExp_transport (s : State) (x : Option Command) : (s.setExp x).transport = s.transport := rfl
@[simp] theorem State.setExp_draws (s : State) (x : Option Command) : (s.setExp x).draws = s.draws := rfl

@[simp] theorem State.setFb_exp (s : State) (x : Memory) : (s.setFb x).exp = s.exp := rfl
@[simp] theorem State.setFb_fb (s : State) (x : Memory) : (s.setFb x).fb = x := rfl
@[simp] theorem State.setFb_txb (s : State) (x : Memory) : (s.setFb x).txb = s.txb := rfl
@[simp] theorem State.setFb_txv (s : State) (x : Memory) : (s.setFb x).txv = s.txv := rfl
@[simp] theorem State.setFb_res (s : State) (x : Memory) : (s.setFb x).res = s.res := rfl
@[simp] theorem State.setFb_inputs (s : State) (x : Memory) : (s.setFb x).inputs = s.inputs := rfl
@[simp] theorem State.setFb_transport (s : State) (x : Memory) : (s.setFb x).transport = s.transport := rfl
@[simp] theorem State.setFb_draws (s : State) (x : Memory) : (s.setFb x).draws = s.draws := rfl

@[simp] theorem State.setTxb_exp (s : State) (x : Vector Byte 5) : (s.setTxb x).exp = s.exp := rfl
@[simp] theorem State.setTxb_fb (s : State) (x : Vector Byte 5) : (s.setTxb x).fb = s.fb := rfl
@[simp] theorem State.setTxb_txb (s : State) (x : Vector Byte 5) : (s.setTxb x).txb = x := rfl
@[simp] theorem State.setTxb_txv (s : State) (x : Vector Byte 5) : (s.setTxb x).txv = s.txv := rfl
@[simp] theorem State.setTxb_res (s : State) (x : Vector Byte 5) : (s.setTxb x).res = s.res := rfl
@[simp] theorem State.setTxb_inputs (s : State) (x : Vector Byte 5) : (s.setTxb x).inputs = s.inputs := rfl
@[simp] theorem State.setTxb_transport (s : State) (x : Vector Byte 5) : (s.setTxb x).transport = s.transport := rfl
@[simp] theorem State.setTxb_draws (s : State) (x : Vector Byte 5) : (s.setTxb x).draws = s.draws := rfl

@[simp] theorem State.setTxv_exp (s : State) (x : Bool) : (s.setTxv x).exp = s.exp := rfl
@[simp] theorem State.setTxv_fb (s : State) (x : Bool) : (s.setTxv x).fb = s.fb := rfl
@[simp] theorem State.setTxv_txb (s : State) (x : Bool) : (s.setTxv x).txb = s.txb := rfl
@[simp] theorem State.setTxv_txv (s : State) (x : Bool) : (s.setTxv x).txv = x := rfl
@[simp] theorem State.setTxv_res (s : State) (x : Bool) : (s.setTxv x).res = s.res := rfl
@[simp] theorem State.setTxv_inputs (s : State) (x : Bool) : (s.setTxv x).inputs = s.inputs := rfl
@[simp] theorem State.setTxv_transport (s : State) (x : Bool) : (s.setTxv x).transport = s.transport := rfl
@[simp] theorem State.setTxv_draws (s : State) (x : Bool) : (s.setTxv x).draws = s.draws := rfl

@[simp] theorem State.setRes_exp (s : State) (x : Results) : (s.setRes x).exp = s.exp := rfl
@[simp] theorem State.setRes_fb (s : State) (x : Results) : (s.setRes x).fb = s.fb := rfl
@[simp] theorem State.setRes_txb (s : State) (x : Results) : (s.setRes x).txb = s.txb := rfl
@[simp] theorem State.setRes_txv (s : State) (x : Results) : (s.setRes x).txv = s.txv := rfl
@[simp] theorem State.setRes_res (s : State) (x : Results) : (s.setRes x).res = x := rfl
@[simp] theorem State.setRes_inputs (s : State) (x : Results) : (s.setRes x).inputs = s.inputs := rfl
@[simp] theorem State.setRes_transport (s : State) (x : Results) : (s.setRes x).transport = s.transport := rfl
@[simp] theorem State.setRes_draws (s : State) (x : Results) : (s.setRes x).draws = s.draws := rfl

@[simp] theorem State.setInputs_exp (s : State) (x : List Input) : (s.setInputs x).exp = s.exp := rfl
@[simp] theorem State.setInputs_fb (s : State) (x : List Input) : (s.setInputs x).fb = s.fb := rfl
@[simp] theorem State.setInputs_txb (s : State) (x : List Input) : (s.setInputs x).txb = s.txb := rfl
@[simp] theorem State.setInputs_txv (s : State) (x : List Input) : (s.setInputs x).txv = s.txv := rfl
@[simp] theorem State.setInputs_res (s : State) (x : List Input) : (s.setInputs x).res = s.res := rfl
@[simp] theorem State.setInputs_inputs (s : State) (x : List Input) : (s.setInputs x).inputs = x := rfl
@[simp] theorem State.setInputs_transport (s : State) (x : List Input) : (s.setInputs x).transport = s.transport := rfl
@[simp] theorem State.setInputs_draws (s : State) (x : List Input) : (s.setInputs x).draws = s.draws := rfl

@[simp] theorem State.setTransport_exp (s : State) (x : Transport) : (s.setTransport x).exp = s.exp := rfl
@[simp] theorem State.setTransport_fb (s : State) (x : Transport) : (s.setTransport x).fb = s.fb := rfl
@[simp] theorem State.setTransport_txb (s : State) (x : Transport) : (s.setTransport x).txb = s.txb := rfl
@[simp] theorem State.setTransport_txv (s : State) (x : Transport) : (s.setTransport x).txv = s.txv := rfl
@[simp] theorem State.setTransport_res (s : State) (x : Transport) : (s.setTransport x).res = s.res := rfl
@[simp] theorem State.setTransport_inputs (s : State) (x : Transport) : (s.setTransport x).inputs = s.inputs := rfl
@[simp] theorem State.setTransport_transport (s : State) (x : Transport) : (s.setTransport x).transport = x := rfl
@[simp] theorem State.setTransport_draws (s : State) (x : Transport) : (s.setTransport x).draws = s.draws := rfl

@[simp] theorem State.setDraws_exp (s : State) (x : Nat) : (s.setDraws x).exp = s.exp := rfl
@[simp] theorem State.setDraws_fb (s : State) (x : Nat) : (s.setDraws x).fb = s.fb := rfl
@[simp] theorem State.setDraws_txb (s : State) (x : Nat) : (s.setDraws x).txb = s.txb := rfl
@[simp] theorem State.setDraws_txv (s : State) (x : Nat) : (s.setDraws x).txv = s.txv := rfl
@[simp] theorem State.setDraws_res (s : State) (x : Nat) : (s.setDraws x).res = s.res := rfl
@[simp] theorem State.setDraws_inputs (s : State) (x : Nat) : (s.setDraws x).inputs = s.inputs := rfl
@[simp] theorem State.setDraws_transport (s : State) (x : Nat) : (s.setDraws x).transport = s.transport := rfl
@[simp] theorem State.setDraws_draws (s : State) (x : Nat) : (s.setDraws x).draws = x := rfl

@[ext] theorem State.ext_fields {s t : State} (h1 : s.exp = t.exp) (h2 : s.fb = t.fb) (h3 : s.txb = t.txb)
    (h4 : s.txv = t.txv) (h5 : s.res = t.res) (h6 : s.inputs = t.inputs) (h7 : s.transport = t.transport)
    (h8 : s.draws = t.draws) : s = t := by
  cases s; cases t; simp_all

end Sys2Proof.Machine
end

