-- ==== Sys2Proof/Laws/Ops.lean ====
section
/-! SUPPORT. What each shared operation of Machine/Ops.lean does, said once: the frame buffer as memory (read after
write, canonical form kept, bounds kept), completing and raising, drawing. -/

namespace Sys2Proof.Machine

/-! ## The frame buffer as memory -/

@[simp] theorem Memory.read_nil (i : Nat) : Memory.read [] i = 0x00#8 := rfl

theorem Memory.read_of_not_mem (m : Memory) (i : Nat) (h : ∀ cell ∈ m, cell.1 ≠ i) : m.read i = Memory.unlisted := by
  induction m with
  | nil => rfl
  | cons x m ih =>
    have hx : i ≠ x.1 := fun e => h x (by simp) e.symm
    simp only [Memory.read, hx, if_false]
    exact ih (fun cell hc => h cell (by simp [hc]))

@[simp] theorem Memory.read_insert (m : Memory) (i j : Nat) (b : Byte) :
    (Memory.insert m i b).read j = if j = i then b else m.read j := by
  induction m with
  | nil => simp only [Memory.insert, Memory.read]
  | cons x m ih =>
    obtain ⟨a, y⟩ := x
    simp only [Memory.insert]
    split
    · simp only [Memory.read]
    · split
      · rename_i h; subst h
        simp only [Memory.read]
        split <;> rfl
      · rename_i h1 h2
        simp only [Memory.read, ih]
        by_cases hj : j = a
        · subst hj; simp [Ne.symm h2]
        · simp [hj]

theorem Memory.read_filter_ne (m : Memory) (i j : Nat) :
    (Memory.read (m.filter (fun cell => decide (cell.1 ≠ i))) j) = if j = i then Memory.unlisted else m.read j := by
  induction m with
  | nil =>
    simp only [List.filter_nil, Memory.read]
    split <;> rfl
  | cons x m ih =>
    obtain ⟨a, y⟩ := x
    by_cases ha : a = i
    · subst ha
      rw [List.filter_cons_of_neg (by simp), ih]
      by_cases hj : j = a <;> simp [hj, Memory.read]
    · rw [List.filter_cons_of_pos (by simp [ha])]
      simp only [Memory.read, ih]
      by_cases hj : j = a
      · subst hj; simp [ha]
      · simp [hj]

/-- A read after a write gives the value written there, and every other byte as before. -/
@[simp] theorem Memory.read_write (m : Memory) (i j : Nat) (b : Byte) :
    (m.write i b).read j = if j = i then b else m.read j := by
  unfold Memory.write
  split
  · rename_i h; rw [Memory.read_filter_ne, h]
  · exact Memory.read_insert m i j b

theorem Memory.wf_iff (m : Memory) :
    m.wf = true ↔ m.Pairwise (fun x y => x.1 < y.1) ∧ ∀ cell ∈ m, cell.2 ≠ Memory.unlisted := by
  simp [Memory.wf]

theorem Memory.mem_insert {m : Memory} {i : Nat} {b : Byte} {cell : Host.Cell} (h : cell ∈ Memory.insert m i b) :
    cell = (i, b) ∨ cell ∈ m := by
  induction m with
  | nil => simpa [Memory.insert] using h
  | cons x m ih =>
    obtain ⟨a, y⟩ := x
    simp only [Memory.insert] at h
    split at h
    · simpa using h
    · split at h
      · simp only [List.mem_cons] at h ⊢; tauto
      · simp only [List.mem_cons] at h ⊢
        rcases h with h | h
        · exact .inr (.inl h)
        · rcases ih h with h | h
          · exact .inl h
          · exact .inr (.inr h)

/-- Every entry after a write is the byte written or was there before. -/
theorem Memory.mem_write {m : Memory} {i : Nat} {b : Byte} {cell : Host.Cell} (h : cell ∈ m.write i b) :
    cell = (i, b) ∨ cell ∈ m := by
  unfold Memory.write at h
  split at h
  · exact .inr (List.mem_filter.mp h).1
  · exact Memory.mem_insert h

theorem Memory.insert_wf {m : Memory} (h : m.wf = true) (i : Nat) {b : Byte} (hb : b ≠ Memory.unlisted) :
    (Memory.insert m i b).wf = true := by
  rw [Memory.wf_iff] at h ⊢
  refine ⟨?_, fun cell hc => ?_⟩
  · obtain ⟨h, -⟩ := h
    induction m with
    | nil => simp [Memory.insert]
    | cons x m ih =>
      obtain ⟨a, y⟩ := x
      rw [List.pairwise_cons] at h
      simp only [Memory.insert]
      split
      · rename_i hlt
        refine List.pairwise_cons.mpr ⟨?_, List.pairwise_cons.mpr h⟩
        intro z hz
        rcases List.mem_cons.mp hz with rfl | hz
        · exact hlt
        · exact hlt.trans (h.1 z hz)
      · split
        · rename_i heq; subst heq
          exact List.pairwise_cons.mpr ⟨h.1, h.2⟩
        · rename_i h1 h2
          refine List.pairwise_cons.mpr ⟨fun z hz => ?_, ih h.2⟩
          rcases Memory.mem_insert hz with rfl | hz
          · simp only; omega
          · exact h.1 z hz
  · rcases Memory.mem_insert hc with rfl | hc
    · exact hb
    · exact h.2 cell hc

/-- A write keeps the canonical form. -/
theorem Memory.write_wf {m : Memory} (h : m.wf = true) (i : Nat) (b : Byte) : (m.write i b).wf = true := by
  unfold Memory.write
  split
  · rw [Memory.wf_iff] at h ⊢
    exact ⟨h.1.filter _, fun cell hc => h.2 cell (List.mem_filter.mp hc).1⟩
  · rename_i hb; exact Memory.insert_wf h i hb

@[simp] theorem Memory.zeros_wf : Memory.zeros.wf = true := by decide

@[simp] theorem Memory.read_zeros (i : Nat) : Memory.zeros.read i = 0x00#8 := rfl

/-- The entries of a filled memory lie inside what was filled and are not the unlisted value. -/
theorem Memory.mem_ofBytes {bs : List Byte} {base : Nat} {cell : Host.Cell} (h : cell ∈ Memory.ofBytes base bs) :
    base ≤ cell.1 ∧ cell.1 < base + bs.length ∧ cell.2 ≠ Memory.unlisted := by
  induction bs generalizing base with
  | nil => simp [Memory.ofBytes] at h
  | cons b bs ih =>
    simp only [Memory.ofBytes] at h
    split at h
    · have := ih h
      exact ⟨by omega, by simp only [List.length_cons]; omega, this.2.2⟩
    · rename_i hb
      rcases List.mem_cons.mp h with rfl | h
      · exact ⟨le_refl _, by simp, hb⟩
      · have := ih h
        exact ⟨by omega, by simp only [List.length_cons]; omega, this.2.2⟩

/-- Filling from a list of bytes gives the canonical form. -/
theorem Memory.ofBytes_wf (base : Nat) (bs : List Byte) : (Memory.ofBytes base bs).wf = true := by
  rw [Memory.wf_iff]
  refine ⟨?_, fun cell hc => (Memory.mem_ofBytes hc).2.2⟩
  induction bs generalizing base with
  | nil => simp [Memory.ofBytes]
  | cons b bs ih =>
    simp only [Memory.ofBytes]
    split
    · exact ih _
    · exact List.pairwise_cons.mpr ⟨fun z hz => (Memory.mem_ofBytes hz).1, ih _⟩

/-- What a filled memory reads as: the bytes in order, and unlisted outside them. -/
theorem Memory.read_ofBytes (base : Nat) (bs : List Byte) (i : Nat) :
    (Memory.ofBytes base bs).read (base + i) = bs.getD i 0x00#8 := by
  induction bs generalizing base i with
  | nil => simp [Memory.ofBytes]
  | cons b bs ih =>
    cases i with
    | zero =>
      simp only [Memory.ofBytes, Nat.add_zero]
      split
      · rename_i hb
        rw [Memory.read_of_not_mem _ _ (fun cell hc => by have := (Memory.mem_ofBytes hc).1; omega)]
        simp [hb]
      · simp [Memory.read]
    | succ i =>
      have := ih (base + 1) i
      rw [show base + 1 + i = base + (i + 1) by omega] at this
      simp only [Memory.ofBytes, List.getD_cons_succ]
      split
      · exact this
      · simp only [Memory.read, show ¬ base + (i + 1) = base by omega, if_false, this]

@[simp] theorem Memory.read_ofBytes_zero (bs : List Byte) (i : Nat) :
    (Memory.ofBytes 0 bs).read i = bs.getD i 0x00#8 := by
  simpa using Memory.read_ofBytes 0 bs i

@[simp] theorem Memory.readBytes_length (m : Memory) (a n : Nat) : (m.readBytes a n).length = n := by
  induction n generalizing a with
  | zero => rfl
  | succ n ih => simp [Memory.readBytes, ih]

theorem Memory.readBytes_getElem (m : Memory) (a n i : Nat) (h : i < (m.readBytes a n).length) :
    (m.readBytes a n)[i] = m.read (a + i) := by
  induction n generalizing a i with
  | zero => simp [Memory.readBytes] at h
  | succ n ih =>
    cases i with
    | zero => simp [Memory.readBytes]
    | succ i =>
      simp only [Memory.readBytes, List.getElem_cons_succ]
      rw [ih (a + 1) i (by simpa [Memory.readBytes] using h), show a + 1 + i = a + (i + 1) by omega]

/-- Runs of bytes agree where every byte of them agrees. -/
theorem Memory.readBytes_congr {m m' : Memory} {a n : Nat} (h : ∀ i, i < n → m.read (a + i) = m'.read (a + i)) :
    m.readBytes a n = m'.readBytes a n := by
  refine List.ext_getElem (by simp) (fun i h1 h2 => ?_)
  rw [Memory.readBytes_getElem, Memory.readBytes_getElem]
  exact h i (by simpa using h1)

/-- Reading back the beginning of a filled memory. -/
theorem Memory.readBytes_ofBytes (bs rest : List Byte) :
    (Memory.ofBytes 0 (bs ++ rest)).readBytes 0 bs.length = bs := by
  refine List.ext_getElem (by simp) (fun i h1 h2 => ?_)
  rw [Memory.readBytes_getElem]
  simp [List.getD_eq_getElem?_getD, List.getElem?_append_left h2, List.getElem?_eq_getElem h2]

/-! ## Completing and raising -/

@[simp] theorem complete_eq (r : Results) (s : State) : complete r s = s.setRes r := rfl

@[simp] theorem raise_eq (e : Err) (s : State) : raise e s = s.setRes e.results := rfl

@[simp] theorem Err.results_rstatus (e : Err) : e.results.rstatus = e.status.code := by cases e <;> rfl
@[simp] theorem Err.results_rval (e : Err) : e.results.rval = 0 := by cases e <;> rfl
@[simp] theorem Err.results_rvec (e : Err) : e.results.rvec = Vector.replicate 8 0 := by cases e <;> rfl
@[simp] theorem Err.results_rlen (e : Err) : e.results.rlen = 0 := by cases e <;> rfl
@[simp] theorem Err.results_rbytes (e : Err) : e.results.rbytes = [] := by cases e <;> rfl
@[simp] theorem Err.results_rfault (e : Err) : e.results.rfault = Vector.replicate 24 0 := by cases e <;> rfl

/-- No error of the block has the status `OK` or `NONE`, nor one of the transport's. -/
theorem Err.status_code_mem (e : Err) :
    e.status.code ∈ [0x01#8, 0x02#8, 0x03#8, 0x04#8, 0x05#8, 0x06#8, 0x07#8, 0x0E#8, 0x0F#8, 0x12#8] := by
  cases e <;> simp [Err.status, Status.code]

/-- A turned-away request ends in the refusal of a marked `CKSUM`, or in a next state that differs in the result file
alone. -/
theorem rejectRequest_cases (r : Reject) (s : State) :
    (r = .failMarkerOnCksum ∧ rejectRequest r s = .refused .failMarkerOnCksum) ∨
    (r = .illegalOp ∧ rejectRequest r s = .next (s.setRes Err.illegalOp.results)) ∨
    (r = .illegalOperand ∧ rejectRequest r s = .next (s.setRes Err.illegalOperand.results)) := by
  cases r <;> simp [rejectRequest]

/-! ## Drawing -/

@[simp] theorem drawnBytes_length (k n : Nat) : (drawnBytes k n).length = n := by
  induction n generalizing k with
  | zero => rfl
  | succ n ih => simp [drawnBytes, ih]

theorem drawnBytes_getElem (k n i : Nat) (h : i < (drawnBytes k n).length) :
    (drawnBytes k n)[i] = Config.freeByte (k + i) := by
  induction n generalizing k i with
  | zero => simp [drawnBytes] at h
  | succ n ih =>
    cases i with
    | zero => simp [drawnBytes]
    | succ i =>
      simp only [drawnBytes, List.getElem_cons_succ]
      rw [ih (k + 1) i (by simpa [drawnBytes] using h), show k + 1 + i = k + (i + 1) by omega]

/-- Drawing a frame changes the buffer, whose bytes are the next draws, and the draw counter. -/
theorem drawFrame_spec (n : Nat) (s : State) :
    (drawFrame n s).exp = s.exp ∧ (drawFrame n s).txb = s.txb ∧ (drawFrame n s).txv = s.txv ∧
    (drawFrame n s).res = s.res ∧ (drawFrame n s).inputs = s.inputs ∧ (drawFrame n s).transport = s.transport ∧
    (drawFrame n s).draws = s.draws + n ∧
    (∀ i, i < n → (drawFrame n s).fb.read i = Config.freeByte (s.draws + i)) ∧
    (drawFrame n s).fb.wf = true ∧ ∀ cell ∈ (drawFrame n s).fb, cell.1 < n := by
  refine ⟨rfl, rfl, rfl, rfl, rfl, rfl, rfl, fun i hi => ?_, ?_, fun cell hc => ?_⟩
  · have hl : i < (drawnBytes s.draws n).length := by simpa using hi
    simp only [drawFrame, State.setDraws_fb, State.setFb_fb, Memory.read_ofBytes_zero]
    rw [List.getD_eq_getElem?_getD, List.getElem?_eq_getElem hl, Option.getD_some, drawnBytes_getElem]
  · exact Memory.ofBytes_wf _ _
  · have := (Memory.mem_ofBytes (by simpa [drawFrame] using hc)).2.1
    simpa using this

end Sys2Proof.Machine
end

