-- ==== Sys2Proof/Laws/Extract.lean ====
section
/-! SUPPORT. What validation, the windows, the sources of the layout table and storing a scalar do, said once. -/

namespace Sys2Proof.Machine

/-! ## Validation -/

/-- Validation passes exactly on a frame that every rule of R124 accepts. -/
theorem validate_pass_iff (cfg : Config) (c : Command) (m : Memory) :
    validate cfg c m = .pass ↔
      m.read 0 = 0x02#8 ∧ m.read 1 = 0x01#8 ∧ m.read 2 = cfg.code c ∧ m.read 3 = cfg.len c ∧
      m.read (4 + payloadLen cfg c) = frameChecksum cfg c m := by
  unfold validate
  repeat' split
  all_goals simp_all

/-- The active command of a state is `c` exactly when its buffer holds a valid frame of `c`. -/
theorem activeCommand_ok_iff (cfg : Config) (s : State) (c : Command) :
    activeCommand cfg s = .ok c ↔ ValidFrame cfg s c := by
  unfold activeCommand
  constructor
  · intro h
    split at h
    · cases h
    · rename_i c' hc
      split at h
      · cases h
      · rename_i hv
        obtain ⟨h0, h1, h2, h3, h4⟩ := (validate_pass_iff _ _ _).mp hv
        cases h
        exact ⟨hc, h0, h1, h2, h3, h4⟩
  · intro h
    have hv := (validate_pass_iff cfg c s.fb).mpr
      ⟨h.startCode, h.leaderId, h.responseCode, h.declaredLength, h.checksum⟩
    simp [h.expected, hv]

theorem activeCommand_of_valid {cfg : Config} {s : State} {c : Command} (h : ValidFrame cfg s c) :
    activeCommand cfg s = .ok c := (activeCommand_ok_iff cfg s c).mpr h

theorem activeCommand_of_none {cfg : Config} {s : State} (h : s.exp = none) :
    activeCommand cfg s = .error .noFrame := by simp [activeCommand, h]

/-- Two states with the same `EXP` and frame buffer have the same active command: nothing is cached (10_state.md R30). -/
theorem activeCommand_congr (cfg : Config) {s t : State} (he : s.exp = t.exp) (hf : s.fb = t.fb) :
    activeCommand cfg s = activeCommand cfg t := by simp only [activeCommand, he, hf]

/-- The errors before extraction are `NO_FRAME` and `INVALID_FRAME` with a rule number from 1 to 5. -/
theorem activeCommand_error {cfg : Config} {s : State} {e : Err} (h : activeCommand cfg s = .error e) :
    (s.exp = none ∧ e = .noFrame) ∨
    ∃ c rule x y, s.exp = some c ∧ validate cfg c s.fb = .fail rule x y ∧ 1 ≤ rule ∧ rule ≤ 5 ∧
      e = .invalidFrame rule x y := by
  unfold activeCommand at h
  split at h
  · rename_i hn; exact .inl ⟨hn, by cases h; rfl⟩
  · rename_i c hc
    split at h
    · rename_i rule x y hv
      refine .inr ⟨c, rule, x, y, hc, hv, ?_, ?_, by cases h; rfl⟩ <;>
      · unfold validate at hv
        repeat' split at hv
        all_goals first
          | (cases hv; decide)
          | cases hv
    · cases h

/-! ## Windows and sources -/

theorem window_eq (cfg : Config) (c : Command) (q : Quantity) (o : Byte) (w : Nat) :
    window cfg c q o w = if o.toNat + w > (cfg.len c).toNat
      then .error (.dataBytesShortage q (o.toNat + w) (cfg.len c).toNat) else .ok (4 + o.toNat) := rfl

theorem evalSource_cells (cfg : Config) (c : Command) (m : Memory) (q : Quantity) (off : Byte) :
    evalSource cfg c m q (.cells off) = if off.toNat + 16 > (cfg.len c).toNat
      then .error (.dataBytesShortage .cellVoltages (off.toNat + 16) (cfg.len c).toNat)
      else .ok (cellSum m (4 + off.toNat) : Nat) := by
  simp only [evalSource, window_eq]; split <;> rfl

theorem evalSource_signed (cfg : Config) (c : Command) (m : Memory) (q : Quantity) (off : Byte) (k : Int) :
    evalSource cfg c m q (.signed off k) = if off.toNat + 2 > (cfg.len c).toNat
      then .error (.dataBytesShortage q (off.toNat + 2) (cfg.len c).toNat)
      else .ok (k * m.s16 (4 + off.toNat)) := by
  simp only [evalSource, window_eq]; split <;> rfl

theorem evalSource_unsigned (cfg : Config) (c : Command) (m : Memory) (q : Quantity) (off : Byte) (k : Int) :
    evalSource cfg c m q (.unsigned off k) = if off.toNat + 2 > (cfg.len c).toNat
      then .error (.dataBytesShortage q (off.toNat + 2) (cfg.len c).toNat)
      else .ok (k * m.u16 (4 + off.toNat)) := by
  simp only [evalSource, window_eq]; split <;> rfl

theorem evalSource_temperature (cfg : Config) (c : Command) (m : Memory) (q : Quantity) (off : Byte) (k : Int) :
    evalSource cfg c m q (.temperature off k) = if off.toNat + 2 > (cfg.len c).toNat
      then .error (.dataBytesShortage q (off.toNat + 2) (cfg.len c).toNat)
      else .ok (k * temperatureWord cfg m (4 + off.toNat)) := by
  simp only [evalSource, window_eq]; split <;> rfl

theorem evalSource_byte (cfg : Config) (c : Command) (m : Memory) (q : Quantity) (off : Byte) :
    evalSource cfg c m q (.byte off) = if off.toNat + 1 > (cfg.len c).toNat
      then .error (.dataBytesShortage q (off.toNat + 1) (cfg.len c).toNat)
      else .ok (m.read (4 + off.toNat)).toNat := by
  simp only [evalSource, window_eq]; split <;> rfl

theorem evalSource_absoluteSoc (cfg : Config) (c : Command) (m : Memory) (q : Quantity) (r d : Byte) :
    evalSource cfg c m q (.absoluteSoc r d) =
      if r.toNat + 2 > (cfg.len c).toNat
      then .error (.dataBytesShortage .remainingCapacity (r.toNat + 2) (cfg.len c).toNat)
      else if d.toNat + 2 > (cfg.len c).toNat
      then .error (.dataBytesShortage .designCapacity (d.toNat + 2) (cfg.len c).toNat)
      else if m.u16 (4 + d.toNat) = 0 then .error (.divideByZero q)
      else .ok (cfg.absSocFn (m.u16 (4 + r.toNat)) (m.u16 (4 + d.toNat))) := by
  simp only [evalSource, window_eq]
  split
  · rfl
  · split <;> rfl

theorem evalSource_relativeSoc (cfg : Config) (c : Command) (m : Memory) (q : Quantity) (r f : Byte) :
    evalSource cfg c m q (.relativeSoc r f) =
      if r.toNat + 2 > (cfg.len c).toNat
      then .error (.dataBytesShortage .remainingCapacity (r.toNat + 2) (cfg.len c).toNat)
      else if f.toNat + 2 > (cfg.len c).toNat
      then .error (.dataBytesShortage .fullChargeCapacity (f.toNat + 2) (cfg.len c).toNat)
      else if m.u16 (4 + f.toNat) = 0 then .error (.divideByZero q)
      else .ok ((100 * m.u16 (4 + r.toNat) / m.u16 (4 + f.toNat) : Nat) : Int) := by
  simp only [evalSource, window_eq]
  split
  · rfl
  · split <;> rfl

/-- The windows of a computed quantity report their own quantity, so an extraction raises one of three errors. -/
theorem evalSource_error {cfg : Config} {c : Command} {m : Memory} {q : Quantity} {src : Source} {e : Err}
    (h : evalSource cfg c m q src = .error e) :
    (∃ q' need, e = .dataBytesShortage q' need (cfg.len c).toNat ∧ need > (cfg.len c).toNat) ∨ e = .divideByZero q := by
  cases src <;>
    simp only [evalSource_cells, evalSource_signed, evalSource_unsigned, evalSource_temperature, evalSource_byte,
      evalSource_absoluteSoc, evalSource_relativeSoc] at h <;>
    repeat' split at h
  all_goals first
    | (cases h; exact .inl ⟨_, _, rfl, by assumption⟩)
    | (cases h; exact .inr rfl)
    | cases h

theorem extract_of_layout {cfg : Config} {q : Quantity} {c : Command} {src : Source} (h : layout cfg q c = some src)
    (m : Memory) : extract cfg c m q = evalSource cfg c m q src := by
  simp only [extract, sourceOf, h]; rfl

theorem extract_of_no_source {cfg : Config} {q : Quantity} {c : Command} (h : layout cfg q c = none) (m : Memory) :
    extract cfg c m q = .error (.noAppropriateData c (commandMask (validSources cfg q))) := by
  simp only [extract, sourceOf, h]; rfl

/-! ## Storing and reading a scalar -/

/-- Storing a scalar writes the result file and, where the spec states no value, takes one draw. -/
theorem storeScalar_cases (cfg : Config) (q : Quantity) (v : Int) (s : State) :
    (valueStated cfg q v = true ∧ storeScalar cfg q v s = s.setRes { Results.ok with rval := BitVec.ofInt 32 v }) ∨
    (valueStated cfg q v = false ∧
      storeScalar cfg q v s =
        (s.setRes { Results.ok with rval := Config.freeWord s.draws }).setDraws (s.draws + 1)) := by
  unfold storeScalar
  cases h : valueStated cfg q v <;> simp

/-- A scalar accessor leaves everything but the result file and the draw counter alone. -/
theorem readScalar_same (cfg : Config) (q : Quantity) (s : State) : SameButResults s (readScalar cfg q s) := by
  unfold readScalar
  split
  · exact ⟨rfl, rfl, rfl, rfl, rfl, rfl⟩
  · split
    · exact ⟨rfl, rfl, rfl, rfl, rfl, rfl⟩
    · rename_i v _
      rcases storeScalar_cases cfg q v s with ⟨-, h⟩ | ⟨-, h⟩ <;> rw [h] <;> exact ⟨rfl, rfl, rfl, rfl, rfl, rfl⟩

/-- A scalar accessor on a valid frame is its extraction. -/
theorem readScalar_of_valid {cfg : Config} {q : Quantity} {s : State} {c : Command} (h : ValidFrame cfg s c) :
    readScalar cfg q s =
      match extract cfg c s.fb q with
      | .error e => s.setRes e.results
      | .ok v => storeScalar cfg q v s := by
  simp only [readScalar, activeCommand_of_valid h]; rfl

/-! ## Frames that are valid -/

/-- A buffer allocated for `c` and filled with the data frame `DF(c, p)` holds a valid frame (20_memory.md R46). -/
theorem dataFrame_valid (cfg : Config) (s : State) (c : Command) (p : List Byte) (he : s.exp = some c)
    (hp : p.length = (cfg.len c).toNat) (hf : s.fb = Memory.ofBytes 0 (dataFrame cfg c p)) : ValidFrame cfg s c := by
  have hl : (dataBody cfg c p).length = 4 + (cfg.len c).toNat := by simp [dataBody, hp]; omega
  have hbody : s.fb.readBytes 0 (4 + (cfg.len c).toNat) = dataBody cfg c p := by
    rw [hf, ← hl]; exact Memory.readBytes_ofBytes _ _
  refine ⟨he, ?_, ?_, ?_, ?_, ?_⟩
  · simp [hf, dataFrame, dataBody]
  · simp [hf, dataFrame, dataBody]
  · simp [hf, dataFrame, dataBody]
  · simp [hf, dataFrame, dataBody]
  · rw [hbody, hf, Memory.read_ofBytes_zero, dataFrame, ← hl]
    simp [List.getD_eq_getElem?_getD]

end Sys2Proof.Machine
end

