-- ==== Sys2Proof/Laws/PerInstr.lean ====
section
/-! SUPPORT. Statements made for every instruction, one lemma per constructor. Family `FormatHeld`: the encoding of an
instruction passes the first two steps of the decode procedure (30_encoding.md R64): its OP is the operation's, and
every must-be-zero bit of its format is 0. -/

namespace Sys2Proof.Laws.FormatHeld

/-- The request word of `i` carries the OP of `i` and no must-be-zero bit (30_encoding.md R61, R63, R64). -/
def Statement (i : Instr) : Prop :=
  Op.ofCode (opField (encodeWord i)) = some i.op ∧ encodeWord i &&& i.op.format.mustBeZero = 0#32

/-- OP of a word whose low byte is an operation's code. -/
theorem opField_append {n : Nat} (x : BitVec n) (op : Op) (h : n + 8 = 32) :
    opField ((x ++ op.code).cast h) = op.code := by
  obtain rfl : n = 24 := by omega
  apply BitVec.eq_of_getLsbD_eq
  intro i hi
  have : i < 32 := by omega
  rw [opField, BitVec.getLsbD_extractLsb', BitVec.cast_eq, BitVec.getLsbD_append]
  simp [hi]

theorem ofCode_code (op : Op) : Op.ofCode op.code = some op := by cases op <;> decide

theorem cksum (stream : List Byte) : Statement (.cksum stream) :=
  ⟨(by decide : Op.ofCode (opField (wordN .cksum)) = some .cksum), (by decide : wordN .cksum &&& Format.mustBeZero Format.s = 0#32)⟩

theorem receive (stream : Stream) : Statement (.receive stream) :=
  ⟨(by decide : Op.ofCode (opField (wordN .receive)) = some .receive), (by decide : wordN .receive &&& Format.mustBeZero Format.rx = 0#32)⟩

theorem validate : Statement (.validate) :=
  ⟨by decide, by decide⟩

theorem payload : Statement (.payload) :=
  ⟨by decide, by decide⟩

theorem getCellVoltages : Statement (.getCellVoltages) :=
  ⟨by decide, by decide⟩

theorem getCurrent : Statement (.getCurrent) :=
  ⟨by decide, by decide⟩

theorem getTemperature : Statement (.getTemperature) :=
  ⟨by decide, by decide⟩

theorem getRemainingCapacity : Statement (.getRemainingCapacity) :=
  ⟨by decide, by decide⟩

theorem getDesignCapacity : Statement (.getDesignCapacity) :=
  ⟨by decide, by decide⟩

theorem getFullChargeCapacity : Statement (.getFullChargeCapacity) :=
  ⟨by decide, by decide⟩

theorem getAbsoluteSoc : Statement (.getAbsoluteSoc) :=
  ⟨by decide, by decide⟩

theorem getRelativeSoc : Statement (.getRelativeSoc) :=
  ⟨by decide, by decide⟩

theorem getStateOfHealth : Statement (.getStateOfHealth) :=
  ⟨by decide, by decide⟩

theorem getModuleVoltage : Statement (.getModuleVoltage) :=
  ⟨by decide, by decide⟩

theorem getFailStatus1 : Statement (.getFailStatus1) :=
  ⟨by decide, by decide⟩

theorem getFailStatus2 : Statement (.getFailStatus2) :=
  ⟨by decide, by decide⟩

theorem getFailStatus3 : Statement (.getFailStatus3) :=
  ⟨by decide, by decide⟩

theorem faultIter : Statement (.faultIter) :=
  ⟨by decide, by decide⟩

theorem cmdInfo (cmd : Command) : Statement (.cmdInfo cmd) := by
  cases cmd <;> exact ⟨by decide, by decide⟩

theorem build (cmd : Command) : Statement (.build cmd) := by
  cases cmd <;> exact ⟨by decide, by decide⟩

theorem frameNew (cmd : Command) : Statement (.frameNew cmd) := by
  cases cmd <;> exact ⟨by decide, by decide⟩

theorem faultByName (fault : FaultId) : Statement (.faultByName fault) := by
  cases fault <;> exact ⟨by decide, by decide⟩

theorem fbWrite (index : Nat) (byte : Byte) : Statement (.fbWrite index byte) := by
  constructor
  · exact (congrArg Op.ofCode (opField_append (byte ++ 0#7 ++ BitVec.ofNat 9 index) .fbWrite rfl)).trans (ofCode_code _)
  · refine BitVec.eq_of_getLsbD_eq (fun i hi => ?_)
    rw [BitVec.getLsbD_and]
    simp only [encodeWord, wordW, BitVec.getLsbD_append, Instr.op, Op.format, Format.mustBeZero]
    interval_cases i <;> simp

theorem fbRead (index : Nat) : Statement (.fbRead index) := by
  constructor
  · exact (congrArg Op.ofCode (opField_append (0#15 ++ BitVec.ofNat 9 index) .fbRead rfl)).trans (ofCode_code _)
  · refine BitVec.eq_of_getLsbD_eq (fun i hi => ?_)
    rw [BitVec.getLsbD_and]
    simp only [encodeWord, wordR, BitVec.getLsbD_append, Instr.op, Op.format, Format.mustBeZero]
    interval_cases i <;> simp

theorem faultDecode (fault : FaultId) (byte : Byte) : Statement (.faultDecode fault byte) := by
  constructor
  · exact (congrArg Op.ofCode (opField_append (0#8 ++ byte ++ 0#3 ++ BitVec.ofNat 5 fault.fid) .faultDecode rfl)).trans
      (ofCode_code _)
  · refine BitVec.eq_of_getLsbD_eq (fun i hi => ?_)
    rw [BitVec.getLsbD_and]
    simp only [encodeWord, wordFB, BitVec.getLsbD_append, Instr.op, Op.format, Format.mustBeZero]
    interval_cases i <;> simp

end Sys2Proof.Laws.FormatHeld
end

