-- ==== Sys2Proof/Laws/Transport.lean ====
section
/-! SUPPORT. The laws of what the transport makes of a `RECEIVE` (70_reset_and_hazards.md R251, R255), and what a step
on a request can do. -/

namespace Sys2Proof.Machine

@[simp] theorem delivered_opened (stream : Stream) : delivered true stream = stream := rfl
@[simp] theorem delivered_unopened (stream : Stream) : delivered false stream = .fail := rfl

theorem bufferForAnother_of_no_frame (cfg : Config) {s : State} (h : s.exp = none) : bufferForAnother cfg s = false := by
  simp only [bufferForAnother, h]

theorem bufferForAnother_of_idle (cfg : Config) {s : State} (h : s.transport.awaiting = false) :
    bufferForAnother cfg s = false := by
  unfold bufferForAnother; split <;> simp [h]

theorem bufferForAnother_iff (cfg : Config) {s : State} {c : Command} (h : s.exp = some c) :
    bufferForAnother cfg s = true ↔
      s.transport.awaiting = true ∧ s.transport.sent.head? ≠ some (commandFrame cfg c) := by
  simp [bufferForAnother, h]

/-- The buffer answers the frame sent last, so it is for no other command. -/
theorem bufferForAnother_of_answers {cfg : Config} {s : State} (h : AnswersLastSent cfg s) :
    bufferForAnother cfg s = false := by
  obtain ⟨c, frame, he, hs, rfl⟩ := h
  simp [bufferForAnother, he, hs]

/-- The list of what is to come plays no part in what the transport makes of an operation. -/
@[simp] theorem bufferForAnother_setInputs (cfg : Config) (s : State) (is : List Input) :
    bufferForAnother cfg (s.setInputs is) = bufferForAnother cfg s := rfl

/-- Every operation but `RECEIVE` comes as it is. -/
theorem arriving_of_host (cfg : Config) (s : State) {i : Instr} (h : i.op ≠ .receive) : arriving cfg s i = .ok i := by
  cases i <;> first | rfl | exact absurd rfl h

/-- Everything the transport can make of an operation: it comes as it is, it is a `RECEIVE` that has become a `FAIL`
because the link is not open, or it is a `RECEIVE` that stops because the buffer is for another command. -/
theorem arriving_cases (cfg : Config) (s : State) (i : Instr) :
    arriving cfg s i = .ok i ∨
    (s.transport.opened = false ∧ i.op = .receive ∧ arriving cfg s i = .ok (.receive .fail)) ∨
    (bufferForAnother cfg s = true ∧ i.op = .receive ∧ arriving cfg s i = .error .bufferForAnotherCommand) := by
  cases i
  case receive stream =>
    by_cases hb : bufferForAnother cfg s = true
    · exact .inr (.inr ⟨hb, rfl, by simp [arriving, hb]⟩)
    · cases ho : s.transport.opened
      · exact .inr (.inl ⟨rfl, rfl, by simp [arriving, hb, ho]⟩)
      · exact .inl (by simp [arriving, hb, ho])
  all_goals exact .inl rfl

/-- Everything a request that is answered by a next state can have done: it ran the operation it decodes to, or the
`FAIL` that an unopened transport delivers, or it was turned away at decode with the result file alone changed. -/
theorem acceptRequest_cases {r : Request} {s t : State} (h : acceptRequest r s = .next t) :
    (∃ i, decode r = .ok i ∧ exec i s = .next t) ∨
    (∃ stream, decode r = .ok (.receive stream) ∧ s.transport.opened = false ∧ exec (.receive .fail) s = .next t) ∨
    (∃ why, decode r = .error why ∧ rejectRequest why s = .next t) := by
  unfold acceptRequest at h
  cases hd : decode r with
  | error why => rw [hd] at h; exact .inr (.inr ⟨why, rfl, h⟩)
  | ok i =>
    rw [hd] at h
    rcases arriving_cases Config.device s i with ha | ⟨ho, hi, ha⟩ | ⟨-, -, ha⟩ <;> simp only [ha] at h
    · exact .inl ⟨i, rfl, h⟩
    · cases i <;> cases hi
      exact .inr (.inl ⟨_, rfl, ho, h⟩)
    · cases h

end Sys2Proof.Machine
end

