-- ==== Sys2Proof/Tests/Slice0.lean ====
section
/-! SUPPORT. The model's own tests. Expected values come from 95_test_vectors.md (the vector is named at each test) or
are written out from the encodings of 30_encoding.md. Tests on values run at TC1, whose checksum is an XOR
(`Config.tc1`); the witnesses for the statements' hypotheses run at the machine's own open configuration. -/

namespace Sys2Proof.Tests
open Sys2Proof Sys2Proof.Machine

/-! ## Well-formedness refuses what it must -/

theorem test_wf_refuses_fbWrite_index : (Instr.fbWrite 512 0x00).wellFormed = false := by decide

theorem test_wf_refuses_fbRead_index : (Instr.fbRead 512).wellFormed = false := by decide

theorem test_wf_accepts_last_index :
    (Instr.fbWrite 511 0xFF).wellFormed = true ∧ (Instr.fbRead 511).wellFormed = true := by decide

/-- A stream on a format that carries none (R60), and `FAIL` outside format RX (R61). -/
theorem test_wf_refuses_streams :
    ({ agent := .host, word := 0x00000014, stream := .bytes [0x00] } : Request).wellFormed = false ∧
    ({ agent := .host, word := 0x00000001, stream := .fail } : Request).wellFormed = false ∧
    ({ agent := .host, word := 0x00000001, stream := .bytes [0x00] } : Request).wellFormed = true ∧
    ({ agent := .transport, word := 0x00000013, stream := .fail } : Request).wellFormed = true := by decide

/-- The laws of R9 refuse a configuration in which two commands share a wire code (law (a)). -/
theorem test_laws_refuse_shared_code : ¬ Config.Admissible { Config.tc1 with code := fun _ => 0x40 } :=
  fun h => absurd (h.codeInjective (a₁ := .cellVoltage) (a₂ := .current) rfl) (by decide)

/-! ## Decoding, word by word -/

/-- A request of the host without a stream. -/
def hostRequest (w : Word) : Request := { agent := .host, word := w, stream := .bytes [] }

/-- A request of the transport. -/
def transportRequest (w : Word) (st : Stream) : Request := { agent := .transport, word := w, stream := st }

/-- Checksum, catalog and builder: OP in bits 7..0, CMD in bits 11..8 (R61, R63). -/
theorem test_decode_checksum_family :
    decode { agent := .host, word := 0b00000000_00000000_00000000_00000001, stream := .bytes [0x02, 0x01] } =
      .ok (.cksum [0x02, 0x01]) ∧
    decode (hostRequest 0b00000000_00000000_00001010_00000010) = .ok (.cmdInfo .summary) ∧
    decode (hostRequest 0b00000000_00000000_00000001_00000011) = .ok (.build .current) := ⟨rfl, rfl, rfl⟩

/-- Frame buffer: INDEX in bits 16..8, BYTE in bits 31..24 (R61, R63). -/
theorem test_decode_frame_family :
    decode (hostRequest 0b00000000_00000000_00001001_00010000) = .ok (.frameNew .moduleInformation) ∧
    decode (hostRequest 0b11010010_00000001_00000101_00010001) = .ok (.fbWrite 261 0xD2) ∧
    decode (hostRequest 0b00000000_00000001_11111111_00010010) = .ok (.fbRead 511) ∧
    decode (transportRequest 0b00000000_00000000_00000000_00010011 (.bytes [0xAA])) = .ok (.receive (.bytes [0xAA])) ∧
    decode (transportRequest 0b00000000_00000000_00000000_00010011 .fail) = .ok (.receive .fail) ∧
    decode (hostRequest 0b00000000_00000000_00000000_00010100) = .ok .validate ∧
    decode (hostRequest 0b00000000_00000000_00000000_00010101) = .ok .payload := ⟨rfl, rfl, rfl, rfl, rfl, rfl, rfl⟩

/-- Field extractor: OP alone (R61, R63). -/
theorem test_decode_extractor_family :
    decode (hostRequest 0b00000000_00000000_00000000_00100000) = .ok .getCellVoltages ∧
    decode (hostRequest 0b00000000_00000000_00000000_00100001) = .ok .getCurrent ∧
    decode (hostRequest 0b00000000_00000000_00000000_00100010) = .ok .getTemperature ∧
    decode (hostRequest 0b00000000_00000000_00000000_00100011) = .ok .getRemainingCapacity ∧
    decode (hostRequest 0b00000000_00000000_00000000_00100100) = .ok .getDesignCapacity ∧
    decode (hostRequest 0b00000000_00000000_00000000_00100101) = .ok .getFullChargeCapacity ∧
    decode (hostRequest 0b00000000_00000000_00000000_00100110) = .ok .getAbsoluteSoc ∧
    decode (hostRequest 0b00000000_00000000_00000000_00100111) = .ok .getRelativeSoc ∧
    decode (hostRequest 0b00000000_00000000_00000000_00101000) = .ok .getStateOfHealth ∧
    decode (hostRequest 0b00000000_00000000_00000000_00101001) = .ok .getModuleVoltage ∧
    decode (hostRequest 0b00000000_00000000_00000000_00101010) = .ok .getFailStatus1 ∧
    decode (hostRequest 0b00000000_00000000_00000000_00101011) = .ok .getFailStatus2 ∧
    decode (hostRequest 0b00000000_00000000_00000000_00101100) = .ok .getFailStatus3 :=
  ⟨rfl, rfl, rfl, rfl, rfl, rfl, rfl, rfl, rfl, rfl, rfl, rfl, rfl⟩

/-- Fault decoder: FID in bits 12..8, BYTE in bits 23..16 (R61, R63). -/
theorem test_decode_fault_family :
    decode (hostRequest 0b00000000_10000000_00010111_00110000) = .ok (.faultDecode .ramDfFail 0x80) ∧
    decode (hostRequest 0b00000000_00000000_00010001_00110001) = .ok (.faultByName .romFail) ∧
    decode (hostRequest 0b00000000_00000000_00000000_00110010) = .ok .faultIter := ⟨rfl, rfl, rfl⟩

/-- Vectors of section 2: unassigned OPs, must-be-zero bits (before the operand), operands out of range, a `RECEIVE` of
the host. -/
theorem test_decode_rejects :
    decode (hostRequest 0x00000000) = .error .illegalOp ∧ decode (hostRequest 0x00000004) = .error .illegalOp ∧
    decode (hostRequest 0x0000001F) = .error .illegalOp ∧ decode (hostRequest 0x0000002D) = .error .illegalOp ∧
    decode (hostRequest 0x000000FF) = .error .illegalOp ∧ decode (hostRequest 0x00000114) = .error .illegalOp ∧
    decode (hostRequest 0x80000021) = .error .illegalOp ∧ decode (hostRequest 0x00000101) = .error .illegalOp ∧
    decode (hostRequest 0x00001B02) = .error .illegalOp ∧ decode (hostRequest 0x00020011) = .error .illegalOp ∧
    decode (hostRequest 0x00020012) = .error .illegalOp ∧ decode (hostRequest 0x00002030) = .error .illegalOp ∧
    decode (hostRequest 0x01000030) = .error .illegalOp ∧ decode (hostRequest 0x00000013) = .error .illegalOp ∧
    decode (hostRequest 0x00000B02) = .error .illegalOperand ∧ decode (hostRequest 0x00000F03) = .error .illegalOperand ∧
    decode (hostRequest 0x00001830) = .error .illegalOperand ∧ decode (hostRequest 0x00001F31) = .error .illegalOperand :=
  ⟨rfl, rfl, rfl, rfl, rfl, rfl, rfl, rfl, rfl, rfl, rfl, rfl, rfl, rfl, rfl, rfl, rfl, rfl⟩

/-- The first instruction after reset is the one its word stands for. -/
theorem test_step_runs_fetched_word :
    step (State.reset.withFetchWord 32 0x00000110) = exec (.frameNew .current) State.reset := rfl

/-- R251: bytes from an unopened transport, with a buffer for them, are a `RECEIVE_FAILED`. -/
theorem test_step_unopened_receive :
    ∃ t, step ((State.reset.setExp (some .current)).setInputs
      [.request (transportRequest 0x00000013 (.bytes [0x02, 0x01, 0x41, 0x02, 0x00, 0x64, 0x24, 0x00]))]) = .next t ∧
      t.res.rstatus = 0x12 := ⟨_, rfl, rfl⟩

/-- Vector 4.4: without a buffer it is `NO_FRAME`, checked before the stream. -/
theorem test_step_receive_without_buffer :
    ∃ t, step (State.reset.withFetchWord 32 0x00000013) = .next t ∧ t.res.rstatus = 0x05 := ⟨_, rfl, rfl⟩

/-! ## One step at a time, on TC1 -/

/-- Reset, then a buffer for `c` that holds `DF(c, p)` (95_test_vectors.md 0.1). -/
def holding (cfg : Config) (c : Command) (p : List Byte) : State :=
  (State.reset.setExp (some c)).setFb (Memory.ofBytes 0 (dataFrame cfg c p))

/-- `n` zero bytes. -/
def zeros (n : Nat) : List Byte := List.replicate n 0x00

/-- TC2: TC1 with `LEN[MI] = 20`. -/
def tc2 : Config := { Config.tc1 with len := fun c => if c = .moduleInformation then 20 else Config.tc1Len c }

/-- TC1 under `RESULT_OVERFLOW = ANY`. -/
def tcAny : Config := { Config.tc1 with resultOverflow := .any }

/-- The `MI` payload of program P3. -/
def p3Payload : List Byte :=
  [0x0F, 0xA0, 0x0F, 0xA0, 0x0F, 0xA0, 0x0F, 0xA0, 0x0F, 0xA0, 0x0F, 0xA0, 0x0F, 0xA0, 0x0F, 0xA0,
   0xFF, 0x85, 0x00, 0xFA, 0x01, 0xF4, 0x03, 0xE8, 0x03, 0xE7, 0x5F, 0x40, 0x00, 0x00, 0x00, 0x00]

/-- The `SU` payload of program P4. -/
def p4Payload : List Byte :=
  [0xFF, 0xFF, 0x01, 0x2C, 0x00, 0xC8, 0x01, 0xF4, 0x03, 0xE8, 0x03, 0xE8, 0x32, 0x33, 0x64, 0x7D, 0x00,
   0x00, 0x00, 0x01]

/-- What a test looks at: status, and the scalar. -/
def outcome (s : State) : Byte × Word := (s.res.rstatus, s.res.rval)

/-- `CKSUM` (vector 3.1: the reduction of the empty stream; here of three bytes under the test checksum). -/
theorem test_cksum : outcome (runCksum Config.tc1 [0x05, 0x01, 0x41] State.reset) = (0x00, 0x00000045) := by decide

/-- Vectors 3.4 and 3.5. -/
theorem test_cmdInfo :
    outcome (runCmdInfo Config.tc1 .cellVoltage State.reset) = (0x00, 0x00001040) ∧
    outcome (runCmdInfo Config.tc1 .summary State.reset) = (0x00, 0x0000144A) := by decide

/-- Vector 3.7, with `T1` the test checksum. -/
theorem test_build :
    (runBuild Config.tc1 .current State.reset).res.rbytes = [0x05, 0x01, 0x41, 0x00, 0x45] ∧
    (runBuild Config.tc1 .current State.reset).txv = true := by decide

/-- Vector 3.11. -/
theorem test_build_unsupported :
    (runBuild { Config.tc1 with reqLen := fun _ => 1 } .current State.reset).res.rstatus = 0x07 ∧
    (runBuild { Config.tc1 with reqLen := fun _ => 1 } .current State.reset).txv = false := by decide

/-- Vectors 4.5 and S1. -/
theorem test_frameNew :
    (runFrameNew .current State.reset).expReg = 1#4 ∧ (runFrameNew .current State.reset).flen Config.tc1 = 8 ∧
    (runFrameNew .summary State.reset).flen Config.tc1 = 26 := by decide

/-- Vectors 4.3 and 4.14. -/
theorem test_fbWrite_refused :
    (runFbWrite Config.tc1 0 0x02 State.reset).res.rstatus = 0x05 ∧
    (runFbWrite Config.tc1 8 0x00 (runFrameNew .current State.reset)).res.rneed = 8 := by decide

/-- Vectors 4.7 and 4.8: writing back a zero removes the entry, so equal buffers are equal data. -/
theorem test_fbWrite :
    (runFbWrite Config.tc1 1 0x01 (runFbWrite Config.tc1 0 0x02 (runFrameNew .current State.reset))).fb =
      [(0, 0x02), (1, 0x01)] ∧
    (runFbWrite Config.tc1 0 0x00 (runFbWrite Config.tc1 0 0x02 (runFrameNew .current State.reset))).fb = [] := by
  decide

/-- Vectors 4.16 and 4.17. -/
theorem test_fbRead :
    outcome (runFbRead Config.tc1 5 (holding Config.tc1 .current [0x04, 0xD2])) = (0x00, 0x000000D2) ∧
    (runFbRead Config.tc1 8 (holding Config.tc1 .current [0x04, 0xD2])).res.ravail = 8 := by decide

/-- Vectors 4.4 and 4.24. -/
theorem test_receive_failed :
    (runReceive Config.tc1 .fail State.reset).res.rstatus = 0x05 ∧
    (runReceive Config.tc1 (.bytes [0x02, 0x01, 0x41, 0x02, 0x04, 0xD2, 0x94])
      (runFrameNew .current State.reset)).res.rstatus = 0x12 := by decide

/-- Vector 4.25: the buffer holds the bytes; nothing is validated. -/
theorem test_receive :
    (runReceive Config.tc1 (.bytes [0x02, 0x01, 0x41, 0x02, 0x00, 0x64, 0x24, 0x00])
      (runFrameNew .current State.reset)).fb = [(0, 0x02), (1, 0x01), (2, 0x41), (3, 0x02), (5, 0x64), (6, 0x24)] := by
  decide

/-- Vectors 4.12 and 4.13: a reserved byte of any value is accepted. -/
theorem test_validate :
    (runValidate Config.tc1 (holding Config.tc1 .current [0x04, 0xD2])).res.rstatus = 0x00 ∧
    (runValidate Config.tc1 (runFbWrite Config.tc1 7 0xAA (holding Config.tc1 .current [0x04, 0xD2]))).res.rstatus = 0x00 := by
  decide

/-- S3: start code before checksum; S7: checksum byte 0xFF. -/
theorem test_validate_order :
    (runValidate Config.tc1 (runReceive Config.tc1 (.bytes [0x00, 0x01, 0x41, 0x02, 0x04, 0xD2, 0xFF, 0x00])
      (runFrameNew .current State.reset))).res.rrule = 1 ∧
    (runValidate Config.tc1 (runFbWrite Config.tc1 6 0xFF (holding Config.tc1 .current [0x04, 0xD2]))).res.rrule = 5 := by
  decide

/-- Vectors 4.18 and 4.20: the length is `EXP`'s, not the frame's. -/
theorem test_payload :
    (runPayload Config.tc1 (holding Config.tc1 .current [0x04, 0xD2])).res.rbytes = [0x04, 0xD2] ∧
    (runPayload Config.tc1 (runFbWrite Config.tc1 3 0xFF (holding Config.tc1 .current [0x04, 0xD2]))).res.rlen = 2 := by
  decide

/-- Vector 5.1: cells 4000 to 4007. -/
theorem test_getCellVoltages :
    (runGetCellVoltages Config.tc1 (holding Config.tc1 .cellVoltage
      [0x0F, 0xA0, 0x0F, 0xA1, 0x0F, 0xA2, 0x0F, 0xA3, 0x0F, 0xA4, 0x0F, 0xA5, 0x0F, 0xA6, 0x0F, 0xA7])).res.rvec =
      #v[4000, 4001, 4002, 4003, 4004, 4005, 4006, 4007] := by decide

/-- Vector 5.1: the window at offset 20 does not fit 32 bytes. -/
theorem test_getCellVoltages_shortage :
    let cfg := { Config.tc1 with mi := { Config.tc1.mi with cellV := 20 } }
    (runGetCellVoltages cfg (holding cfg .moduleInformation (zeros 32))).res.rneed = 36 := by decide

/-- Scenario A (S6) and vector 5.2: -123 on `MI` is -1230. -/
theorem test_getCurrent :
    outcome (readScalar Config.tc1 .current (holding Config.tc1 .current [0x04, 0xD2])) = (0x00, 1234) ∧
    outcome (readScalar Config.tc1 .current (holding Config.tc1 .moduleInformation p3Payload)) = (0x00, BitVec.ofInt 32 (-1230)) := by
  decide

/-- Vector 5.2 under `ANY`: 32770 is drawn, 32760 is stated. -/
theorem test_getCurrent_any :
    (readScalar tcAny .current (holding tcAny .summary ([0x0C, 0xCD] ++ zeros 18))).draws = 6 ∧
    outcome (readScalar tcAny .current (holding tcAny .summary ([0x0C, 0xCC] ++ zeros 18))) = (0x00, 32760) := by
  decide

/-- Vector 5.3: signed and unsigned, and the `UNIT` scale of the dedicated command. -/
theorem test_getTemperature :
    outcome (readScalar Config.tc1 .temperature (holding Config.tc1 .temperature [0xFF, 0x38])) = (0x00, BitVec.ofInt 32 (-200)) ∧
    outcome (readScalar { Config.tc1 with tempSigned := false } .temperature
      (holding Config.tc1 .temperature [0xFF, 0x38])) = (0x00, 65336) ∧
    outcome (readScalar { Config.tc1 with tempDedScale := .unit } .temperature
      (holding Config.tc1 .temperature [0x00, 0xFA])) = (0x00, 2500) := by decide

/-- Program P4: the summary's "max" slot, the second slot not read. -/
theorem test_getTemperature_summary :
    outcome (readScalar Config.tc1 .temperature (holding Config.tc1 .summary p4Payload)) = (0x00, 300) := by decide

/-- Vector 5.4 and S10: x1 on the dedicated command, x10 on the summary. -/
theorem test_getRemainingCapacity :
    outcome (readScalar Config.tc1 .remainingCapacity (holding Config.tc1 .remainingCapacity [0x87, 0x16])) = (0x00, 34582) ∧
    outcome (readScalar Config.tc1 .remainingCapacity (holding Config.tc1 .summary p4Payload)) = (0x00, 5000) := by
  decide

/-- Vector 5.4. -/
theorem test_getDesignCapacity :
    outcome (readScalar Config.tc1 .designCapacity (holding Config.tc1 .designCapacity [0x03, 0xE8])) = (0x00, 1000) ∧
    outcome (readScalar Config.tc1 .designCapacity (holding Config.tc1 .summary p4Payload)) = (0x00, 10000) := by
  decide

/-- Vector 5.4: the shortage of TC2. -/
theorem test_getFullChargeCapacity :
    outcome (readScalar Config.tc1 .fullChargeCapacity (holding Config.tc1 .moduleInformation p3Payload)) = (0x00, 999) ∧
    (readScalar tc2 .fullChargeCapacity (holding tc2 .moduleInformation (p3Payload.take 20))).res.rneed = 26 := by
  decide

/-- Scenario C (S8), and vector 5.5 on the default of `ABS_SOC_FN`: halves round up. -/
theorem test_getAbsoluteSoc :
    outcome (readScalar Config.tc1 .absoluteSoc (holding Config.tc1 .moduleInformation p3Payload)) = (0x00, 50) ∧
    Config.absSocDefault 1 200 = 1 ∧ Config.absSocDefault 3 200 = 2 ∧ Config.absSocDefault 1 201 = 0 := by decide

/-- Vector 5.5: a zero design capacity; program P6: shortage first, naming the window that ran short. -/
theorem test_getAbsoluteSoc_errors :
    (readScalar Config.tc1 .absoluteSoc (holding Config.tc1 .moduleInformation (zeros 32))).res.rstatus = 0x04 ∧
    (readScalar tc2 .absoluteSoc (holding tc2 .moduleInformation (zeros 20))).res.rqty = 3 := by decide

/-- Program P3 (50000 div 999) and P4 (the raw byte). -/
theorem test_getRelativeSoc :
    outcome (readScalar Config.tc1 .relativeSoc (holding Config.tc1 .moduleInformation p3Payload)) = (0x00, 50) ∧
    outcome (readScalar Config.tc1 .relativeSoc (holding Config.tc1 .summary p4Payload)) = (0x00, 51) := by decide

/-- Vectors 5.7: no clamp; the shortage of TC2. -/
theorem test_getStateOfHealth :
    outcome (readScalar Config.tc1 .stateOfHealth (holding Config.tc1 .stateOfHealth [0xFF])) = (0x00, 255) ∧
    (readScalar tc2 .stateOfHealth (holding tc2 .moduleInformation (zeros 20))).res.rneed = 27 := by decide

/-- Vector 5.8: the cell sum, and the odd offset of the summary. -/
theorem test_getModuleVoltage :
    outcome (readScalar Config.tc1 .moduleVoltage (holding Config.tc1 .moduleInformation p3Payload)) = (0x00, 32000) ∧
    outcome (readScalar Config.tc1 .moduleVoltage (holding Config.tc1 .summary p4Payload)) = (0x00, 32000) := by
  decide

/-- Vector 5.9 and S9. -/
theorem test_getFailStatus1 :
    outcome (readScalar Config.tc1 .failStatus1 (holding Config.tc1 .moduleInformation p3Payload)) = (0x00, 0x40) ∧
    (readScalar Config.tc1 .failStatus1 (holding Config.tc1 .current [0x00, 0x00])).res.rvalid = 0x0680 := by decide

/-- Vector 5.9. -/
theorem test_getFailStatus2 :
    outcome (readScalar Config.tc1 .failStatus2 (holding Config.tc1 .failStatus2 [0x40])) = (0x00, 0x40) ∧
    (readScalar tc2 .failStatus2 (holding tc2 .moduleInformation (zeros 20))).res.rqty = 11 := by decide

/-- Vector 5.9 and 5.10: no source before shortage. -/
theorem test_getFailStatus3 :
    outcome (readScalar Config.tc1 .failStatus3 (holding Config.tc1 .summary p4Payload)) = (0x00, 0x01) ∧
    (readScalar tc2 .failStatus3 (holding tc2 .moduleInformation (zeros 20))).res.rstatus = 0x02 := by decide

/-- Vectors 6.1 and 6.6. -/
theorem test_faultDecode :
    outcome (runFaultDecode .fullyCharged 0x40 State.reset) = (0x00, 2) ∧
    outcome (runFaultDecode .selfTestClockFail 0xFE State.reset) = (0x00, 1) := by decide

/-- Vectors 6.8 and 6.12. -/
theorem test_faultByName :
    outcome (runFaultByName Config.tc1 .romFail (holding Config.tc1 .moduleInformation p3Payload)) = (0x00, 0) ∧
    outcome (runFaultByName Config.tc1 .fuseBlown (holding Config.tc1 .failStatus2 [0x40])) = (0x00, 2) := by decide

/-- Vector 6.15: every state Ok but fault 16. -/
theorem test_faultIter :
    (runFaultIter Config.tc1 (holding Config.tc1 .summary p4Payload)).res.rfault.toList =
      List.replicate 16 1#2 ++ [2#2] ++ List.replicate 7 1#2 := by decide

/-- Vector 6.18: registers 1 and 3 are Unknown. -/
theorem test_faultIter_unknown :
    (runFaultIter Config.tc1 (holding Config.tc1 .failStatus2 [0x81])).res.rfault.toList =
      List.replicate 8 0#2 ++ [2#2] ++ List.replicate 6 1#2 ++ [2#2] ++ List.replicate 8 0#2 := by decide

/-! ## Witnesses: the hypotheses of the statements are met

One theorem per statement that has hypotheses, at the boundary values of its ranges. -/

/-- Reset, then a buffer for `c` that holds a frame of zeros with its right header and checksum, at the machine's own
configuration. -/
def sound (c : Command) : State := holding Config.device c (zeros (Config.device.len c).toNat)

theorem sound_valid (c : Command) : ValidFrame Config.device (sound c) c :=
  dataFrame_valid _ _ _ (zeros (Config.device.len c).toNat) rfl (by simp [zeros]) rfl

/-- Reset, then a zero-filled buffer for `c`. -/
def allocated (c : Command) : State := State.reset.setExp (some c)

/-- Reset, with one input to come. -/
def coming (inp : Input) : State := State.reset.setInputs [inp]

/-- The frame of `CURRENT` is built, the link open. -/
def builtState : State :=
  ((State.reset.setTxb (commandFrame Config.device .current)).setTxv true).setTransport
    { Transport.idle with opened := true }

/-- The frame of `CURRENT` is sent, its reply awaited, its buffer allocated. -/
def awaitingState : State :=
  ((builtState.setExp (some .current))).setTransport
    { opened := true, status := 0x00, awaiting := true, sent := [commandFrame Config.device .current] }

theorem awaitingState_answers : bufferForAnother Config.device awaitingState = false :=
  bufferForAnother_of_answers ⟨.current, commandFrame Config.device .current, rfl, rfl, rfl⟩

theorem frameLength_current : 6 + (Config.device.len .current).toNat = 8 := by
  rw [Config.device_admissible.lenCurrent]; rfl

theorem witness_DecodeEncode : (Instr.fbWrite 0 0x00).wellFormed = true ∧ (Instr.fbWrite 511 0xFF).wellFormed = true := by
  decide

theorem witness_DecodedWordIsEncoding :
    decode (hostRequest 0xFF01FF11) = .ok (.fbWrite 511 0xFF) ∧
    decode (transportRequest 0x00000013 .fail) = .ok (.receive .fail) := ⟨rfl, rfl⟩

/-- An operation of the host, and a `RECEIVE` through an open link into the buffer of the command sent. -/
theorem witness_StepRunsDecoded :
    (coming (.request (hostRequest 0x00000014))).inputs = .request (hostRequest 0x00000014) :: [] ∧
    decode (hostRequest 0x00000014) = .ok .validate ∧ Instr.validate.op ≠ .receive ∧
    decode (transportRequest 0x00000013 (.bytes [])) = .ok (.receive (.bytes [])) ∧
    awaitingState.transport.opened = true ∧ bufferForAnother Config.device awaitingState = false :=
  ⟨rfl, rfl, by decide, rfl, rfl, awaitingState_answers⟩

/-- With a buffer and without one, the link closed since reset. -/
theorem witness_UnopenedReceiveFails :
    decode (transportRequest 0x00000013 (.bytes [])) = .ok (.receive (.bytes [])) ∧
    (allocated .current).exp ≠ none ∧ (allocated .current).transport.opened = false ∧
    bufferForAnother Config.device (allocated .current) = false ∧
    State.reset.exp = none ∧ State.reset.transport.opened = false ∧ bufferForAnother Config.device State.reset = false :=
  ⟨rfl, by decide, rfl, rfl, rfl, rfl, rfl⟩

/-- A buffer for `SUMMARY` while the reply to `CURRENT` is awaited: the two command frames differ in their code. -/
theorem witness_BufferForAnotherStops :
    decode (transportRequest 0x00000013 .fail) = .ok (.receive .fail) ∧
    (awaitingState.setExp (some .summary)).exp = some .summary ∧
    (awaitingState.setExp (some .summary)).transport.awaiting = true ∧
    (awaitingState.setExp (some .summary)).transport.sent.head? ≠ some (commandFrame Config.device .summary) :=
  ⟨rfl, rfl, rfl, fun h => absurd
    (Config.device_admissible.codeInjective (congrArg (fun f : Vector Byte 5 => f[2]) (Option.some.inj h))) (by decide)⟩

/-- Both ends of each of the five ranges. -/
theorem witness_UnassignedOps :
    ∀ op ∈ [0x00, 0x04, 0x0F, 0x16, 0x1F, 0x2D, 0x2F, 0x33, 0xFF],
      (op = 0x00 ∨ (0x04 ≤ op ∧ op ≤ 0x0F) ∨ (0x16 ≤ op ∧ op ≤ 0x1F) ∨ (0x2D ≤ op ∧ op ≤ 0x2F) ∨ (0x33 ≤ op ∧ op ≤ 0xFF)) ∧
      (hostRequest (BitVec.ofNat 32 op)).word.toNat % 256 = op := by decide

/-- A lowest and a highest must-be-zero bit of each shape of mask. -/
theorem witness_MustBeZeroBits :
    (hostRequest 0x00000114).word.toNat % 256 = 0x14 ∧ (hostRequest 0x00000114).word &&& 0xFFFFFF00 ≠ 0#32 ∧
    (hostRequest 0x80000003).word.toNat % 256 = 0x03 ∧ (hostRequest 0x80000003).word &&& 0xFFFFF000 ≠ 0#32 ∧
    (hostRequest 0x00020011).word.toNat % 256 = 0x11 ∧ (hostRequest 0x00020011).word &&& 0x00FE0000 ≠ 0#32 ∧
    (hostRequest 0x00020012).word.toNat % 256 = 0x12 ∧ (hostRequest 0x00020012).word &&& 0xFFFE0000 ≠ 0#32 ∧
    (hostRequest 0x01000030).word.toNat % 256 = 0x30 ∧ (hostRequest 0x01000030).word &&& 0xFF00E000 ≠ 0#32 ∧
    (hostRequest 0x00002031).word.toNat % 256 = 0x31 ∧ (hostRequest 0x00002031).word &&& 0xFFFFE000 ≠ 0#32 := by
  decide

/-- The ends of each clause's range. -/
theorem witness_IllegalOperands :
    (hostRequest 0x00000B02).word = BitVec.ofNat 32 (0x02 + 256 * 11) ∧
    (hostRequest 0x00000F10).word = BitVec.ofNat 32 (0x10 + 256 * 15) ∧
    (hostRequest 0x00001831).word = BitVec.ofNat 32 (0x31 + 256 * 24) ∧
    (hostRequest 0x00001F31).word = BitVec.ofNat 32 (0x31 + 256 * 31) ∧
    (hostRequest 0x00001830).word = BitVec.ofNat 32 (0x30 + 256 * 24 + 65536 * 0) ∧
    (hostRequest 0x00FF1F30).word = BitVec.ofNat 32 (0x30 + 256 * 31 + 65536 * 255) := ⟨rfl, rfl, rfl, rfl, rfl, rfl⟩

theorem witness_HostReceive :
    (coming (.request (hostRequest 0x00000013))).inputs = .request (hostRequest 0x00000013) :: [] ∧
    (hostRequest 0x00000013).agent = .host ∧ (hostRequest 0x00000013).word.toNat % 256 = 0x13 := ⟨rfl, rfl, rfl⟩

theorem witness_ResetInput : (coming .reset).inputs = .reset :: [] := rfl

theorem witness_SendBeforeBuild :
    (coming (.transportSend true)).inputs = .transportSend true :: [] ∧ (coming (.transportSend true)).txv = false :=
  ⟨rfl, rfl⟩

theorem witness_SendReadsTransmitBuffer :
    (builtState.setInputs [.transportSend true]).inputs = .transportSend true :: [] ∧ builtState.txv = true ∧
    builtState.transport.awaiting = false := ⟨rfl, rfl, rfl⟩

theorem witness_InterleavedSendStops :
    (awaitingState.setInputs [.transportSend true]).inputs = .transportSend true :: [] ∧ awaitingState.txv = true ∧
    awaitingState.transport.awaiting = true := ⟨rfl, rfl, rfl⟩

theorem witness_OpenTouchesNoBlockState : (coming (.transportOpen false)).inputs = .transportOpen false :: [] := rfl

/-- One witness for each input that host and transport may give. -/
theorem witness_ObeyedInputRuns :
    Obeys Config.device State.reset (.request (hostRequest 0x00000014)) ∧
    Obeys Config.device State.reset (.request (hostRequest 0x00000000)) ∧
    Obeys Config.device State.reset (.transportOpen true) ∧ Obeys Config.device State.reset .reset ∧
    Obeys Config.device builtState (.transportSend true) ∧
    Obeys Config.device awaitingState (.request (transportRequest 0x00000013 .fail)) ∧
    Obeys Config.device awaitingState (.request (transportRequest 0x00000013 (.bytes []))) :=
  ⟨rfl, ⟨rfl, by decide⟩, trivial, trivial, ⟨rfl, rfl, fun _ => rfl⟩,
   ⟨rfl, awaitingState_answers⟩,
   ⟨rfl, rfl, .current, commandFrame Config.device .current, rfl, rfl, rfl⟩⟩

theorem witness_BuildPrecondition :
    ({ Config.tc1 with reqLen := fun _ => 1 } : Config).reqLen .current ≠ 0 ∧ Config.tc1.Admissible :=
  ⟨by decide, Config.tc1_admissible⟩

theorem witness_FrameLength : (allocated .summary).exp = some .summary ∧ State.reset.exp = none := ⟨rfl, rfl⟩

/-- The last index inside the buffer. -/
theorem witness_FbWriteResult : (allocated .current).exp = some .current ∧ 7 < 6 + (Config.device.len .current).toNat :=
  ⟨rfl, by rw [frameLength_current]; decide⟩

theorem witness_FbReadResult : (sound .current).exp = some .current ∧ 7 < 6 + (Config.device.len .current).toNat :=
  ⟨rfl, by rw [frameLength_current]; decide⟩

/-- The first index past the buffer and the last that a request can name. -/
theorem witness_IndexRange :
    (allocated .current).exp = some .current ∧ 6 + (Config.device.len .current).toNat ≤ 8 ∧
    6 + (Config.device.len .current).toNat ≤ 511 := by
  rw [frameLength_current]; exact ⟨rfl, by decide, by decide⟩

theorem witness_ReceiveResult :
    (allocated .current).exp = some .current ∧ (zeros 8).length = 6 + (Config.device.len .current).toNat :=
  ⟨rfl, by rw [frameLength_current]; rfl⟩

/-- `FAIL`, one byte too few and one too many. -/
theorem witness_ReceiveFailed :
    (allocated .current).exp = some .current ∧ (∀ bs, Stream.fail = .bytes bs → bs.length ≠ 6 + (Config.device.len .current).toNat) ∧
    (∀ bs, Stream.bytes (zeros 7) = .bytes bs → bs.length ≠ 6 + (Config.device.len .current).toNat) ∧
    ∀ bs, Stream.bytes (zeros 9) = .bytes bs → bs.length ≠ 6 + (Config.device.len .current).toNat := by
  rw [frameLength_current]
  refine ⟨rfl, fun bs h => ?_, fun bs h => ?_, fun bs h => ?_⟩ <;> cases h <;> decide

theorem witness_ReceiveWithoutBuffer : State.reset.exp = none := rfl

theorem witness_ValidateResult : (allocated .current).exp = some .current := rfl

/-- A valid frame, and a write at the first header byte, the first payload byte, the checksum byte and the reserved
byte, each of which `FB_WRITE` performs. -/
theorem witness_SingleBitFlips :
    ValidFrame Config.device (sound .current) .current ∧
    ∀ n ∈ [0, 3, 4, 5, 6, 7], n < 6 + (Config.device.len .current).toNat ∧
      ∃ t, exec (.fbWrite n ((sound .current).fb.read n ^^^ BitVec.twoPow 8 7)) (sound .current) = .next t := by
  refine ⟨sound_valid _, ?_⟩
  rw [frameLength_current]
  exact fun n hn => ⟨by revert n; decide, _, rfl⟩

theorem witness_ScenarioB :
    let frame := [0x02#8, 0x01#8, Config.device.code .current, 0x02#8, 0x04#8, 0xD2#8, 0xFF#8]
    let s := (allocated .current).setFb (Memory.ofBytes 0 frame)
    s.exp = some .current ∧ s.fb.readBytes 0 7 = frame := by
  refine ⟨rfl, ?_⟩
  have h := Memory.readBytes_ofBytes [0x02#8, 0x01#8, Config.device.code .current, 0x02#8, 0x04#8, 0xD2#8, 0xFF#8] []
  rwa [List.append_nil] at h

theorem witness_PayloadResult : (allocated .summary).exp = some .summary := rfl

/-- The most narrow and the widest of the masks. -/
theorem witness_NoAppropriateData :
    ValidFrame Config.device (sound .moduleInformation) .moduleInformation ∧ (Instr.getFailStatus3, 0x0400#16) ∈ accessorMasks ∧
    (0x0400#16).getLsbD Command.moduleInformation.index = false ∧
    ValidFrame Config.device (sound .current) .current ∧ (Instr.getFailStatus1, 0x0680#16) ∈ accessorMasks ∧
    (0x0680#16).getLsbD Command.current.index = false :=
  ⟨sound_valid _, by decide, by decide, sound_valid _, by decide, by decide⟩

/-- No buffer, and a zero-filled one. -/
theorem witness_InvalidFrameFirst :
    validatesFirst .faultIter ∧ (∀ c, ¬ ValidFrame Config.device State.reset c) ∧
    ∀ c, ¬ ValidFrame Config.device (allocated .current) c :=
  ⟨.inr (.inr rfl), fun _ h => absurd h.startCode (by decide), fun _ h => absurd h.startCode (by decide)⟩

theorem witness_NoFrame :
    needsFrame .payload ∧ needsFrame .getCurrent ∧ State.reset.exp = none ∧ (allocated .current).exp ≠ none ∧
    (∃ t, exec .payload (allocated .current) = .next t) ∧
    ((allocated .current).setInputs [.transportOpen true]).inputs.head? ≠ some .reset ∧
    ∃ t, step ((allocated .current).setInputs [.transportOpen true]) = .next t :=
  ⟨.inr (.inr (.inr (.inr (.inr rfl)))), .inl (.inl ⟨0x0602, by decide⟩), rfl, by decide, ⟨_, rfl⟩, by decide, _, rfl⟩

/-- Cells, current, temperature, capacities, states of charge and of health, voltage and fault registers: a valid frame
of each command that the clauses of these statements name. -/
theorem witness_CellVoltagesResult :
    ValidFrame Config.device (sound .cellVoltage) .cellVoltage ∧
    ValidFrame Config.device (sound .moduleInformation) .moduleInformation := ⟨sound_valid _, sound_valid _⟩

theorem witness_CurrentResult :
    ValidFrame Config.device (sound .current) .current ∧
    ValidFrame Config.device (sound .moduleInformation) .moduleInformation ∧
    ValidFrame Config.device (sound .summary) .summary := ⟨sound_valid _, sound_valid _, sound_valid _⟩

theorem witness_TemperatureResult :
    ValidFrame Config.device (sound .temperature) .temperature ∧
    ValidFrame Config.device (sound .moduleInformation) .moduleInformation ∧
    ValidFrame Config.device (sound .summary) .summary := ⟨sound_valid _, sound_valid _, sound_valid _⟩

theorem witness_CapacityResults :
    ValidFrame Config.device (sound .remainingCapacity) .remainingCapacity ∧
    ValidFrame Config.device (sound .designCapacity) .designCapacity ∧
    ValidFrame Config.device (sound .fullChargeCapacity) .fullChargeCapacity ∧
    ValidFrame Config.device (sound .moduleInformation) .moduleInformation ∧
    ValidFrame Config.device (sound .summary) .summary :=
  ⟨sound_valid _, sound_valid _, sound_valid _, sound_valid _, sound_valid _⟩

theorem witness_AbsoluteSocResult :
    ValidFrame Config.device (sound .moduleInformation) .moduleInformation ∧
    ValidFrame Config.device (sound .summary) .summary := ⟨sound_valid _, sound_valid _⟩

theorem witness_RelativeSocResult :
    ValidFrame Config.device (sound .moduleInformation) .moduleInformation ∧
    ValidFrame Config.device (sound .summary) .summary := ⟨sound_valid _, sound_valid _⟩

theorem witness_AbsoluteSocDefault : (1 : Nat) ≠ 0 ∧ (65535 : Nat) ≠ 0 := by decide

theorem witness_ByteResults :
    ValidFrame Config.device (sound .stateOfHealth) .stateOfHealth ∧
    ValidFrame Config.device (sound .failStatus1) .failStatus1 ∧
    ValidFrame Config.device (sound .failStatus2) .failStatus2 ∧
    ValidFrame Config.device (sound .moduleInformation) .moduleInformation ∧
    ValidFrame Config.device (sound .summary) .summary :=
  ⟨sound_valid _, sound_valid _, sound_valid _, sound_valid _, sound_valid _⟩

theorem witness_FailStatus3Result : ValidFrame Config.device (sound .summary) .summary := sound_valid _

theorem witness_ModuleVoltageResult :
    ValidFrame Config.device (sound .moduleInformation) .moduleInformation ∧
    ValidFrame Config.device (sound .summary) .summary := ⟨sound_valid _, sound_valid _⟩

theorem witness_FaultByNameResult : ValidFrame Config.device (sound .failStatus1) .failStatus1 := sound_valid _

theorem witness_FaultIterResult :
    ValidFrame Config.device (sound .summary) .summary ∧ FaultId.ramDfFail.fid < 24 := ⟨sound_valid _, by decide⟩

/-- A completion with status `OK` and one with an error; both have each clause's premise on some register. -/
theorem witness_ResultClearing :
    (∃ t, exec (.frameNew .current) State.reset = .next t ∧ t.res.rstatus = 0x00) ∧
    ∃ t, exec .validate State.reset = .next t ∧ t.res.rstatus = 0x05 := ⟨⟨_, rfl, rfl⟩, _, rfl, rfl⟩

theorem witness_ErrorsChangeNothing :
    (∃ t, exec .validate State.reset = .next t ∧ t.res.rstatus ≠ 0x00#8) ∧
    ∃ t, exec (.receive .fail) (allocated .current) = .next t ∧ t.res.rstatus = 0x12#8 :=
  ⟨⟨_, rfl, by decide⟩, _, rfl, rfl⟩

theorem witness_WritersOfState :
    (∃ t, exec .validate State.reset = .next t) ∧ Instr.validate.op ≠ .frameNew ∧ Instr.validate.op ≠ .fbWrite ∧
    Instr.validate.op ≠ .receive ∧ Instr.validate.op ≠ .build := ⟨⟨_, rfl⟩, by decide, by decide, by decide, by decide⟩

/-- Two states that differ in `TXV`, in the results and in the transport. -/
theorem witness_NoHiddenState :
    State.reset.exp = (builtState.setRes Results.cleared).exp ∧ State.reset.fb = (builtState.setRes Results.cleared).fb ∧
    State.reset.draws = (builtState.setRes Results.cleared).draws ∧ (∃ t, exec .payload State.reset = .next t) ∧
    ∃ t, exec .payload (builtState.setRes Results.cleared) = .next t := ⟨rfl, rfl, rfl, ⟨_, rfl⟩, _, rfl⟩

theorem witness_ReadsAreIdempotent :
    Instr.payload.op ≠ .frameNew ∧ Instr.payload.op ≠ .fbWrite ∧ Instr.payload.op ≠ .receive ∧
    ∃ t, exec .payload (allocated .current) = .next t ∧ t.draws = (allocated .current).draws :=
  ⟨by decide, by decide, by decide, _, rfl, rfl⟩

/-- A legal state other than reset's that a step leaves. -/
theorem witness_StepKeepsLegal :
    Legal Config.device ((allocated .current).setInputs [.request (hostRequest 0x00000014)]) ∧
    ∃ t, step ((allocated .current).setInputs [.request (hostRequest 0x00000014)]) = .next t :=
  ⟨{ frame := ⟨rfl, fun _ h => nomatch h⟩
     transmit := fun h => nomatch h
     results := ⟨by decide, by decide, by decide, by decide, by decide⟩ }, _, rfl⟩

theorem witness_OnlyCommandFramesAreSent :
    TransmitLegal Config.device (builtState.setInputs [.transportSend true]) ∧
    (∀ frame ∈ (builtState.setInputs [.transportSend true]).transport.sent, ∃ c, frame = commandFrame Config.device c) ∧
    ∃ t, step (builtState.setInputs [.transportSend true]) = .next t :=
  ⟨fun _ => ⟨.current, rfl⟩, fun _ h => absurd h List.not_mem_nil, _, rfl⟩

end Sys2Proof.Tests
end

section
/-! PROOFS. The statements of 00_scope.md: the big-endian decodings (R12) and Scenario B (R9 (g); 95_test_vectors.md
S7). Before them, the facts of byte order, of runs of bytes and of validation that they rest on. -/

namespace Sys2Proof.Machine

/-! ## Byte order -/

/-- The unsigned decoding reads the concatenation of the two bytes, the first the more significant. -/
theorem beU16_eq_toNat_append (b0 b1 : Byte) : beU16 b0 b1 = (b0 ++ b1).toNat := by
  rw [BitVec.toNat_append, ← Nat.shiftLeft_add_eq_or_of_lt b1.isLt, Nat.shiftLeft_eq, beU16]

/-- The signed decoding reads that concatenation in two's complement: both wrap from 32768 on. -/
theorem beS16_eq_toInt_append (b0 b1 : Byte) : beS16 b0 b1 = (b0 ++ b1).toInt := by
  rw [beS16, BitVec.toInt_eq_toNat_cond, beU16_eq_toNat_append]
  by_cases h : (b0 ++ b1).toNat ≥ 32768
  · rw [if_pos h, if_neg (by omega)]; rfl
  · rw [if_neg h, if_pos (by omega)]

/-- Settles O32: the decodings of any two bytes are those of their concatenation, and the examples are evaluated. -/
theorem bigEndianDecode : Obligations.BigEndianDecode :=
  ⟨fun b0 b1 => ⟨beU16_eq_toNat_append b0 b1, beS16_eq_toInt_append b0 b1⟩, by decide⟩

/-! ## Runs of bytes -/

/-- A run of bytes splits at every index. -/
theorem Memory.readBytes_add (m : Memory) (a n k : Nat) :
    m.readBytes a (n + k) = m.readBytes a n ++ m.readBytes (a + n) k := by
  induction n generalizing a with
  | zero => simp [Memory.readBytes]
  | succ n ih =>
    have hidx : a + 1 + n = a + (n + 1) := by omega
    rw [Nat.add_right_comm, Memory.readBytes, Memory.readBytes, ih, hidx, List.cons_append]

/-- A run that is `bs` and then `b`: the run before its last byte is `bs`, and the last byte is `b`. -/
theorem Memory.readBytes_eq_append_singleton {m : Memory} {n : Nat} {bs : List Byte} {b : Byte} (hn : bs.length = n)
    (h : m.readBytes 0 (n + 1) = bs ++ [b]) : m.readBytes 0 n = bs ∧ m.read n = b := by
  rw [Memory.readBytes_add] at h
  obtain ⟨hbody, hlast⟩ := List.append_inj h (by simp [hn])
  exact ⟨hbody, by simpa [Memory.readBytes] using hlast⟩

/-- A byte inside a run whose bytes are known. -/
theorem Memory.read_of_readBytes {m : Memory} {n : Nat} {bs : List Byte} (h : m.readBytes 0 n = bs) {i : Nat}
    (hi : i < bs.length) : m.read i = bs[i] := by
  subst h
  rw [Memory.readBytes_getElem, Nat.zero_add]

/-! ## Validation that fails -/

/-- A frame whose header is right and whose checksum byte is not the computed one fails rule 5, with the computed
checksum expected (41_frame_buffer.md R124). -/
theorem validate_wrong_checksum {cfg : Config} {c : Command} {m : Memory} {p : List Byte}
    (hbody : m.readBytes 0 (4 + payloadLen cfg c) = dataBody cfg c p)
    (hck : m.read (4 + payloadLen cfg c) ≠ cfg.ck (dataBody cfg c p)) :
    validate cfg c m = .fail 5 (cfg.ck (dataBody cfg c p)) (m.read (4 + payloadLen cfg c)) := by
  have h0 : m.read 0 = 0x02#8 := Memory.read_of_readBytes hbody (by simp [dataBody])
  have h1 : m.read 1 = 0x01#8 := Memory.read_of_readBytes hbody (by simp [dataBody])
  have h2 : m.read 2 = cfg.code c := Memory.read_of_readBytes hbody (by simp [dataBody])
  have h3 : m.read 3 = cfg.len c := Memory.read_of_readBytes hbody (by simp [dataBody])
  simp [validate, frameChecksum, hbody, h0, h1, h2, h3, hck]

theorem activeCommand_of_validate_fail {cfg : Config} {s : State} {c : Command} {rule : Nat} {x y : Byte}
    (he : s.exp = some c) (hv : validate cfg c s.fb = .fail rule x y) :
    activeCommand cfg s = .error (.invalidFrame rule x y) := by
  simp only [activeCommand, he, hv]

theorem readScalar_of_error {cfg : Config} {s : State} {e : Err} (q : Quantity) (h : activeCommand cfg s = .error e) :
    readScalar cfg q s = s.setRes e.results := by
  simp only [readScalar, h, raise_eq]

theorem exec_validate_of_error {s : State} {e : Err} (h : activeCommand Config.device s = .error e) :
    exec .validate s = .next (s.setRes e.results) := by
  simp only [exec, execValidate, runValidate, h, raise_eq]

theorem exec_getCurrent_of_error {s : State} {e : Err} (h : activeCommand Config.device s = .error e) :
    exec .getCurrent s = .next (s.setRes e.results) := by
  simp only [exec, execGetCurrent, readScalar_of_error .current h]

/-- The result file of `INVALID_FRAME` by rule 5 (60_exceptions.md R220). -/
theorem invalidFrame_five_results (x y : Byte) :
    (Err.invalidFrame 5 x y).results =
      { Results.cleared with rstatus := 0x01#8, rrule := 5#8, rexp := x, rrcv := y } := rfl

/-! ## Scenario B -/

/-- Settles O30. The first six bytes are the body of a `CURRENT` frame by R9 (c), so only rule 5 can fail, and by R9 (g)
it does; `VALIDATE` and `GET_CURRENT` raise the same error, since both begin with the active command. -/
theorem scenarioB : Obligations.ScenarioB := by
  intro s he hframe
  have hlen : Config.device.len .current = 0x02#8 := Config.device_admissible.lenCurrent
  have hpay : payloadLen Config.device .current = 2 := by rw [payloadLen, hlen]; rfl
  have hdata : dataBody Config.device .current [0x04#8, 0xD2#8] =
      [0x02#8, 0x01#8, Config.device.code .current, 0x02#8, 0x04#8, 0xD2#8] := by simp [dataBody, hlen]
  obtain ⟨hbody, hlast⟩ := Memory.readBytes_eq_append_singleton
    (bs := dataBody Config.device .current [0x04#8, 0xD2#8]) (by simp [hdata]) (hframe.trans (by rw [hdata]; rfl))
  have hv := validate_wrong_checksum (by rw [hpay]; exact hbody)
    (by rw [hpay, hlast, hdata]; exact Config.device_admissible.ckScenarioA.symm)
  rw [hpay, hlast, hdata] at hv
  have herr := activeCommand_of_validate_fail he hv
  exact ⟨_, exec_validate_of_error herr, exec_getCurrent_of_error herr, congrArg _ (invalidFrame_five_results _ _)⟩

end Sys2Proof.Machine
end

section
/-! PROOFS. The statements of 10_state.md: what reset leaves, the length of the buffer, who writes which register, result
clearing, that nothing is cached, and the invariant of every step. They rest on one inversion, `exec_effect`: everything
an operation of the block can do to the state, with the results it can leave. -/

namespace Sys2Proof.Machine

/-! ## The errors an operation raises -/

/-- The errors that an operation of the block raises in an admissible configuration: the five rules of validation give
the rule numbers up to 5 (41_frame_buffer.md R124), and `BUILD_UNSUPPORTED` is unreachable (60_exceptions.md R220). -/
def Err.Raisable : Err → Prop
  | .invalidFrame rule _ _ => rule ≤ 5
  | .buildUnsupported _ => False
  | _ => True

theorem activeCommand_raisable {cfg : Config} {s : State} {e : Err} (h : activeCommand cfg s = .error e) :
    e.Raisable := by
  rcases activeCommand_error h with ⟨-, rfl⟩ | ⟨c, rule, x, y, -, -, -, hrule, rfl⟩
  · trivial
  · exact hrule

theorem extract_raisable {cfg : Config} {c : Command} {m : Memory} {q : Quantity} {e : Err}
    (h : extract cfg c m q = .error e) : e.Raisable := by
  cases hl : layout cfg q c with
  | none =>
    rw [extract_of_no_source hl] at h
    cases h
    trivial
  | some src =>
    rw [extract_of_layout hl] at h
    rcases evalSource_error h with ⟨q', need, rfl, -⟩ | rfl <;> trivial

theorem cellWindow_of_no_source {cfg : Config} {c : Command} (h : layout cfg .cellVoltages c = none) :
    cellWindow cfg c = .error (.noAppropriateData c (commandMask (validSources cfg .cellVoltages))) := by
  simp only [cellWindow, sourceOf, h]; rfl

theorem cellWindow_of_layout {cfg : Config} {c : Command} {src : Source} (h : layout cfg .cellVoltages c = some src) :
    cellWindow cfg c = window cfg c .cellVoltages src.firstOffset 16 := by
  simp only [cellWindow, sourceOf, h]; rfl

theorem cellWindow_raisable {cfg : Config} {c : Command} {e : Err} (h : cellWindow cfg c = .error e) : e.Raisable := by
  cases hl : layout cfg .cellVoltages c with
  | none =>
    rw [cellWindow_of_no_source hl] at h
    cases h
    trivial
  | some src =>
    rw [cellWindow_of_layout hl, window_eq] at h
    split at h
    · cases h; trivial
    · cases h

/-! ## The results an operation leaves -/

/-- The operations whose rules do not name `RVAL`. -/
def noScalarOps : List Op :=
  [.build, .frameNew, .fbWrite, .receive, .validate, .payload, .getCellVoltages, .faultIter]

/-- The result files that an operation can leave: an error's, or the cleared one with status `OK` and the registers that
the operation's rule names (10_state.md R24, R25; 60_exceptions.md R221). -/
inductive Reports : Op → Results → Prop where
  | error {op : Op} {e : Err} (he : e.Raisable) : Reports op e.results
  | done {op : Op} : Reports op Results.ok
  | scalar {op : Op} (hop : op ∉ noScalarOps) (v : Word) : Reports op { Results.ok with rval := v }
  | cells (v : Vector Half 8) : Reports .getCellVoltages { Results.ok with rvec := v }
  | bytes {op : Op} (hop : op ∈ [Op.build, .payload]) {bs : List Byte} {n : Half} (hlen : n.toNat = bs.length)
      (hmax : bs.length ≤ 255) : Reports op { Results.ok with rbytes := bs, rlen := n }
  | faults {v : Vector (BitVec 2) 24} (hv : ∀ i : Fin 24, v[i] ≠ 3#2) :
      Reports .faultIter { Results.ok with rfault := v }

/-- Everything that the operation `op` can do to the state `s` (10_state.md R21 to R26). -/
inductive Effect (cfg : Config) (s : State) : Op → State → Prop where
  /-- It writes the result file alone. -/
  | reports {op : Op} {r : Results} (hr : Reports op r) : Effect cfg s op (s.setRes r)
  /-- It reports a scalar whose value the spec does not state, and draws it (42_field_extractor.md R154). -/
  | drawsScalar {op : Op} (hop : op ∉ noScalarOps) :
      Effect cfg s op ((s.setRes { Results.ok with rval := Config.freeWord s.draws }).setDraws (s.draws + 1))
  /-- `BUILD` writes the transmit buffer (40_checksum_builder.md R104). -/
  | build (c : Command) {r : Results} (hr : Reports .build r) :
      Effect cfg s .build (((s.setTxb (commandFrame cfg c)).setTxv true).setRes r)
  /-- `FRAME_NEW` allocates an empty buffer (41_frame_buffer.md R120). -/
  | frameNew (c : Command) :
      Effect cfg s .frameNew (((s.setExp (some c)).setFb Memory.zeros).setRes Results.ok)
  /-- `FB_WRITE` writes one byte inside the buffer (R121). -/
  | fbWrite {c : Command} {index : Nat} (b : Byte) (he : s.exp = some c) (hi : index < frameLen cfg c) :
      Effect cfg s .fbWrite ((s.setFb (s.fb.write index b)).setRes Results.ok)
  /-- A `RECEIVE` without a buffer ends the exchange (70_reset_and_hazards.md R257). -/
  | receiveNoFrame (he : s.exp = none) : Effect cfg s .receive ((endExchange s).setRes Err.noFrame.results)
  /-- A `RECEIVE` of exactly `FLEN` bytes fills the buffer (41_frame_buffer.md R123). -/
  | receiveBytes {c : Command} {bs : List Byte} (he : s.exp = some c) (hlen : bs.length = frameLen cfg c) :
      Effect cfg s .receive (((endExchange s).setFb (Memory.ofBytes 0 bs)).setRes Results.ok)
  /-- A failed `RECEIVE` draws the buffer (41_frame_buffer.md R123; 10_state.md R32). -/
  | receiveFailed {c : Command} (he : s.exp = some c) :
      Effect cfg s .receive ((drawFrame (frameLen cfg c) (endExchange s)).setRes Err.receiveFailed.results)

/-! ## What each operation does -/

section
variable (cfg : Config) (s : State)

theorem runBuild_effect (hcfg : cfg.Admissible) (c : Command) : Effect cfg s .build (runBuild cfg c s) := by
  have hreq : ¬ cfg.reqLen c ≠ 0 := by simp [hcfg.reqLenZero c]
  rw [runBuild, if_neg hreq]
  exact .build c (.bytes (by decide) rfl (by simp))

theorem runFbWrite_effect (index : Nat) (b : Byte) : Effect cfg s .fbWrite (runFbWrite cfg index b s) := by
  unfold runFbWrite
  split
  · exact .reports (.error trivial)
  next c he =>
    split
    · exact .reports (.error trivial)
    next hi => exact .fbWrite b he (Nat.lt_of_not_le hi)

theorem runFbRead_effect (index : Nat) : Effect cfg s .fbRead (runFbRead cfg index s) := by
  unfold runFbRead
  split
  · exact .reports (.error trivial)
  · split
    · exact .reports (.error trivial)
    · exact .reports (.scalar (by decide) _)

theorem runReceive_effect (stream : Stream) : Effect cfg s .receive (runReceive cfg stream s) := by
  unfold runReceive
  split
  next he => exact .receiveNoFrame he
  next c he =>
    split
    · exact .receiveFailed he
    · split
      next hlen => exact .receiveBytes he hlen
      · exact .receiveFailed he

theorem runValidate_effect : Effect cfg s .validate (runValidate cfg s) := by
  unfold runValidate
  split
  next he => exact .reports (.error (activeCommand_raisable he))
  · exact .reports .done

theorem payloadLen_le (c : Command) : payloadLen cfg c ≤ 255 := Nat.le_of_lt_succ (cfg.len c).isLt

theorem runPayload_effect : Effect cfg s .payload (runPayload cfg s) := by
  unfold runPayload
  split
  · exact .reports (.error trivial)
  next c _ =>
    have hlen : payloadLen cfg c ≤ 255 := payloadLen_le cfg c
    refine .reports (.bytes (by decide) ?_ (by simpa using hlen))
    rw [Memory.readBytes_length, BitVec.toNat_ofNat]
    omega

theorem runGetCellVoltages_effect : Effect cfg s .getCellVoltages (runGetCellVoltages cfg s) := by
  unfold runGetCellVoltages
  split
  next he => exact .reports (.error (activeCommand_raisable he))
  · split
    next he => exact .reports (.error (cellWindow_raisable he))
    · exact .reports (.cells _)

theorem readScalar_effect (q : Quantity) {op : Op} (hop : op ∉ noScalarOps) :
    Effect cfg s op (readScalar cfg q s) := by
  unfold readScalar
  split
  next he => exact .reports (.error (activeCommand_raisable he))
  · split
    next he => exact .reports (.error (extract_raisable he))
    next v _ =>
      rcases storeScalar_cases cfg q v s with ⟨-, hs⟩ | ⟨-, hs⟩ <;> rw [hs]
      · exact .reports (.scalar hop _)
      · exact .drawsScalar hop

theorem runFaultByName_effect (f : FaultId) : Effect cfg s .faultByName (runFaultByName cfg f s) := by
  unfold runFaultByName
  split
  next he => exact .reports (.error (activeCommand_raisable he))
  · exact .reports (.scalar (by decide) _)

/-- Code 3 is never produced (43_fault_decoder.md R200). -/
theorem FaultState.code_ne_three (x : FaultState) : x.code ≠ 3#2 := by cases x <;> decide

theorem runFaultIter_effect : Effect cfg s .faultIter (runFaultIter cfg s) := by
  unfold runFaultIter
  split
  next he => exact .reports (.error (activeCommand_raisable he))
  · exact .reports (.faults fun i => by simpa using FaultState.code_ne_three _)

end

/-- What an operation that answers has done: one of its effects. -/
theorem exec_effect {s t : State} {i : Instr} (h : exec i s = .next t) : Effect Config.device s i.op t := by
  cases i <;> obtain rfl := Host.Outcome.next.inj h
  case cksum => exact .reports (.scalar (show Op.cksum ∉ noScalarOps by decide) _)
  case cmdInfo => exact .reports (.scalar (show Op.cmdInfo ∉ noScalarOps by decide) _)
  case build c => exact runBuild_effect _ s Config.device_admissible c
  case frameNew c => exact .frameNew c
  case fbWrite index b => exact runFbWrite_effect _ s index b
  case fbRead index => exact runFbRead_effect _ s index
  case receive stream => exact runReceive_effect _ s stream
  case validate => exact runValidate_effect _ s
  case payload => exact runPayload_effect _ s
  case getCellVoltages => exact runGetCellVoltages_effect _ s
  case faultDecode => exact .reports (.scalar (show Op.faultDecode ∉ noScalarOps by decide) _)
  case faultByName f => exact runFaultByName_effect _ s f
  case faultIter => exact runFaultIter_effect _ s
  all_goals exact readScalar_effect _ s _ (by decide)

/-- The results of an effect are those of its operation. -/
theorem Effect.reports_res {cfg : Config} {s t : State} {op : Op} (h : Effect cfg s op t) : Reports op t.res := by
  cases h with
  | reports hr => exact hr
  | drawsScalar hop => exact .scalar hop _
  | build _ hr => exact hr
  | frameNew | fbWrite | receiveBytes => exact .done
  | receiveNoFrame => exact .error (e := .noFrame) trivial
  | receiveFailed => exact .error (e := .receiveFailed) trivial

/-! ## Who writes what -/

section
variable {cfg : Config} {s t : State} {op : Op} (h : Effect cfg s op t)
include h

theorem Effect.exp_eq (hop : op ≠ .frameNew) : t.exp = s.exp := by
  cases h with
  | frameNew => exact absurd rfl hop
  | _ => rfl

theorem Effect.fb_eq (hnew : op ≠ .frameNew) (hwrite : op ≠ .fbWrite) (hrecv : op ≠ .receive) : t.fb = s.fb := by
  cases h with
  | frameNew => exact absurd rfl hnew
  | fbWrite => exact absurd rfl hwrite
  | receiveNoFrame | receiveBytes | receiveFailed => exact absurd rfl hrecv
  | _ => rfl

theorem Effect.tx_eq (hop : op ≠ .build) : t.txb = s.txb ∧ t.txv = s.txv := by
  cases h with
  | build => exact absurd rfl hop
  | _ => exact ⟨rfl, rfl⟩

theorem Effect.transport_eq (hop : op ≠ .receive) : t.transport = s.transport := by
  cases h with
  | receiveNoFrame | receiveBytes | receiveFailed => exact absurd rfl hop
  | _ => rfl

theorem Effect.inputs_eq : t.inputs = s.inputs := by cases h <;> rfl

end

/-- Settles O52, one register after the other from the effects of the operations. -/
theorem writersOfState : Obligations.WritersOfState := fun _ _ _ h =>
  have heff := exec_effect h
  ⟨heff.exp_eq, heff.fb_eq, heff.tx_eq, heff.transport_eq, heff.inputs_eq⟩

/-! ## Result clearing -/

/-- Every error field that the status does not name reads 0 (10_state.md R25; 60_exceptions.md R220). -/
def ErrorFieldsCleared (r : Results) : Prop :=
  (r.rstatus ≠ 0x01#8 → r.rrule = 0 ∧ r.rexp = 0 ∧ r.rrcv = 0) ∧
  (r.rstatus ≠ 0x02#8 → r.ract = 0 ∧ r.rvalid = 0) ∧
  (r.rstatus ≠ 0x03#8 → r.rstatus ≠ 0x04#8 → r.rqty = 0) ∧
  (r.rstatus ≠ 0x03#8 → r.rstatus ≠ 0x06#8 → r.rneed = 0 ∧ r.ravail = 0)

theorem Err.results_errorFieldsCleared {e : Err} (h : e.Raisable) : ErrorFieldsCleared e.results := by
  cases e with
  | buildUnsupported => exact h.elim
  | _ => simp [ErrorFieldsCleared, Err.results, Err.status, Status.code, Results.ofStatus, Results.cleared]

/-- An operation that does not raise writes no error field. -/
theorem ErrorFieldsCleared.of_ok (rval : Word) (rvec : Vector Half 8) (rlen : Half) (rbytes : List Byte)
    (rfault : Vector (BitVec 2) 24) :
    ErrorFieldsCleared { Results.ok with rval, rvec, rlen, rbytes, rfault } :=
  ⟨fun _ => ⟨rfl, rfl, rfl⟩, fun _ => ⟨rfl, rfl⟩, fun _ _ => rfl, fun _ _ => ⟨rfl, rfl⟩⟩

section
variable {op : Op} {r : Results} (h : Reports op r)
include h

theorem Reports.errorFieldsCleared : ErrorFieldsCleared r := by
  cases h with
  | error he => exact Err.results_errorFieldsCleared he
  | _ => exact .of_ok ..

theorem Reports.rval_eq (hop : r.rstatus ≠ 0x00#8 ∨ op ∈ noScalarOps) : r.rval = 0 := by
  cases h with
  | error => exact Err.results_rval _
  | scalar hno => exact hop.elim (absurd rfl) (absurd · hno)
  | _ => rfl

theorem Reports.rvec_eq (hop : r.rstatus ≠ 0x00#8 ∨ op ≠ .getCellVoltages) : r.rvec = Vector.replicate 8 0 := by
  cases h with
  | error => exact Err.results_rvec _
  | cells => exact hop.elim (absurd rfl) (absurd rfl)
  | _ => rfl

theorem Reports.rbytes_eq (hop : r.rstatus ≠ 0x00#8 ∨ op ∉ [Op.build, .payload]) : r.rlen = 0 ∧ r.rbytes = [] := by
  cases h with
  | error => exact ⟨Err.results_rlen _, Err.results_rbytes _⟩
  | bytes hby => exact hop.elim (absurd rfl) (absurd hby)
  | _ => exact ⟨rfl, rfl⟩

theorem Reports.rfault_eq (hop : r.rstatus ≠ 0x00#8 ∨ op ≠ .faultIter) : r.rfault = Vector.replicate 24 0 := by
  cases h with
  | error => exact Err.results_rfault _
  | faults => exact hop.elim (absurd rfl) (absurd rfl)
  | _ => rfl

end

/-- Settles O50: the error fields by the status, the other registers by the operation. -/
theorem resultClearing : Obligations.ResultClearing := by
  intro s t i h
  have hr := (exec_effect h).reports_res
  obtain ⟨hrule, hact, hqty, hneed⟩ := hr.errorFieldsCleared
  exact ⟨hrule, hact, hqty, hneed, hr.rval_eq, hr.rvec_eq, hr.rbytes_eq, hr.rfault_eq⟩

/-! ## No hidden state -/

/-- Two states agree on what an operation may read: `EXP`, `FB` and the draws to come (10_state.md R30). -/
structure SameView (s s' : State) : Prop where
  exp : s.exp = s'.exp
  fb : s.fb = s'.fb
  draws : s.draws = s'.draws

/-- Two states agree on that and on the result file: the same operation has answered the same in both. -/
structure SameAnswer (t t' : State) : Prop extends SameView t t' where
  res : t.res = t'.res

section
variable {s s' : State} (h : SameView s s')
include h

theorem SameView.setRes (r : Results) : SameAnswer (s.setRes r) (s'.setRes r) :=
  { exp := h.exp, fb := h.fb, draws := h.draws, res := rfl }

theorem SameView.setFb (m : Memory) : SameView (s.setFb m) (s'.setFb m) := ⟨h.exp, rfl, h.draws⟩

theorem SameView.endExchange : SameView (endExchange s) (endExchange s') := ⟨h.exp, h.fb, h.draws⟩

theorem SameView.drawFrame (n : Nat) : SameView (drawFrame n s) (drawFrame n s') := by
  simp only [Machine.drawFrame, h.draws]
  exact ⟨h.exp, rfl, rfl⟩

variable (cfg : Config)

theorem SameView.activeCommand_eq : activeCommand cfg s = activeCommand cfg s' := activeCommand_congr cfg h.exp h.fb

theorem SameView.runBuild (c : Command) : SameAnswer (runBuild cfg c s) (runBuild cfg c s') := by
  unfold Machine.runBuild
  split
  · exact h.setRes _
  · exact ⟨⟨h.exp, h.fb, h.draws⟩, rfl⟩

theorem SameView.runFrameNew (c : Command) : SameAnswer (runFrameNew c s) (runFrameNew c s') :=
  ⟨⟨rfl, rfl, h.draws⟩, rfl⟩

theorem SameView.runFbWrite (index : Nat) (b : Byte) :
    SameAnswer (runFbWrite cfg index b s) (runFbWrite cfg index b s') := by
  simp only [Machine.runFbWrite, h.exp, h.fb]
  split
  · exact h.setRes _
  · split
    · exact h.setRes _
    · exact (h.setFb _).setRes _

theorem SameView.runFbRead (index : Nat) : SameAnswer (runFbRead cfg index s) (runFbRead cfg index s') := by
  simp only [Machine.runFbRead, h.exp, h.fb]
  split
  · exact h.setRes _
  · split <;> exact h.setRes _

theorem SameView.failReceive (n : Nat) : SameAnswer (failReceive n s) (failReceive n s') := (h.drawFrame n).setRes _

theorem SameView.runReceive (stream : Stream) : SameAnswer (runReceive cfg stream s) (runReceive cfg stream s') := by
  simp only [Machine.runReceive, h.exp]
  split
  · exact h.endExchange.setRes _
  · split
    · exact h.endExchange.failReceive _
    · split
      · exact (h.endExchange.setFb _).setRes _
      · exact h.endExchange.failReceive _

theorem SameView.runValidate : SameAnswer (runValidate cfg s) (runValidate cfg s') := by
  simp only [Machine.runValidate, h.activeCommand_eq cfg]
  split <;> exact h.setRes _

theorem SameView.runPayload : SameAnswer (runPayload cfg s) (runPayload cfg s') := by
  simp only [Machine.runPayload, h.exp, h.fb]
  split <;> exact h.setRes _

theorem SameView.runGetCellVoltages : SameAnswer (runGetCellVoltages cfg s) (runGetCellVoltages cfg s') := by
  simp only [Machine.runGetCellVoltages, h.activeCommand_eq cfg, h.fb]
  split
  · exact h.setRes _
  · split <;> exact h.setRes _

theorem SameView.storeScalar (q : Quantity) (v : Int) : SameAnswer (storeScalar cfg q v s) (storeScalar cfg q v s') := by
  simp only [Machine.storeScalar, h.draws]
  split
  · exact h.setRes _
  · exact ⟨⟨h.exp, h.fb, rfl⟩, rfl⟩

theorem SameView.readScalar (q : Quantity) : SameAnswer (readScalar cfg q s) (readScalar cfg q s') := by
  simp only [Machine.readScalar, h.activeCommand_eq cfg, h.fb]
  split
  · exact h.setRes _
  · split
    · exact h.setRes _
    · exact h.storeScalar cfg q _

theorem SameView.runFaultByName (f : FaultId) : SameAnswer (runFaultByName cfg f s) (runFaultByName cfg f s') := by
  simp only [Machine.runFaultByName, h.activeCommand_eq cfg, h.fb]
  split <;> exact h.setRes _

theorem SameView.runFaultIter : SameAnswer (runFaultIter cfg s) (runFaultIter cfg s') := by
  simp only [Machine.runFaultIter, h.activeCommand_eq cfg, h.fb]
  split <;> exact h.setRes _

/-- An operation answers the same from any two states that agree on what it may read. -/
theorem SameView.exec {t t' : State} {i : Instr} (ht : exec i s = .next t) (ht' : exec i s' = .next t') :
    SameAnswer t t' := by
  cases i <;> obtain rfl := Host.Outcome.next.inj ht <;> obtain rfl := Host.Outcome.next.inj ht'
  case cksum | cmdInfo | faultDecode => exact h.setRes _
  case build c => exact h.runBuild _ c
  case frameNew c => exact h.runFrameNew c
  case fbWrite index b => exact h.runFbWrite _ index b
  case fbRead index => exact h.runFbRead _ index
  case receive stream => exact h.runReceive _ stream
  case validate => exact h.runValidate _
  case payload => exact h.runPayload _
  case getCellVoltages => exact h.runGetCellVoltages _
  case faultByName f => exact h.runFaultByName _ f
  case faultIter => exact h.runFaultIter _
  all_goals exact h.readScalar _ _

end

/-- Settles O54: two states that agree on `EXP`, `FB` and the draws have the same view. -/
theorem noHiddenState : Obligations.NoHiddenState := by
  intro s s' t t' i hexp hfb hdraws ht ht'
  have hview : SameView s s' := ⟨hexp, hfb, hdraws⟩
  obtain ⟨⟨hexp', hfb', hdraws'⟩, hres⟩ := hview.exec ht ht'
  exact ⟨hres, hexp', hfb', hdraws'⟩

/-! ## The length of the buffer and the state after reset -/

theorem State.flen_of_exp (cfg : Config) {s : State} {c : Command} (h : s.exp = some c) :
    s.flen cfg = frameLen cfg c := by simp only [State.flen, h]

theorem State.flen_of_none (cfg : Config) {s : State} (h : s.exp = none) : s.flen cfg = 0 := by
  simp only [State.flen, h]

/-- Settles O20: the least length is R9 (b)'s, the greatest the width of `LEN`. -/
theorem frameLength : Obligations.FrameLength := by
  refine ⟨fun s c he => ?_, fun s he => State.flen_of_none _ he⟩
  have hmin : 1 ≤ payloadLen Config.device c := Config.device_admissible.lenPositive c
  have hmax : payloadLen Config.device c ≤ 255 := payloadLen_le _ c
  rw [State.flen_of_exp _ he, frameLen]
  exact ⟨rfl, by omega, by omega⟩

/-- Settles O9, by evaluation of the reset state. -/
theorem resetState : Obligations.ResetState := ⟨rfl, rfl, rfl, rfl, rfl, rfl⟩

theorem step_of_inputs {s : State} {inp : Input} {rest : List Input} (h : s.inputs = inp :: rest) :
    step s = acceptInput inp (s.setInputs rest) := by simp only [step, h]

/-- Settles O10: the step is `resetBlock` on the state from which the reset input is taken. -/
theorem resetInput : Obligations.ResetInput := fun s rest h =>
  ⟨resetBlock (s.setInputs rest), step_of_inputs h, rfl, rfl, rfl, rfl, rfl, rfl⟩

/-! ## The invariant -/

theorem frameLegal_of_no_bytes {cfg : Config} {s : State} (h : s.fb = []) : FrameLegal cfg s := by
  rw [FrameLegal, h]
  exact ⟨rfl, fun _ hc => absurd hc List.not_mem_nil⟩

theorem Err.results_legal {e : Err} (h : e.Raisable) : ResultsLegal e.results where
  status := by cases e <;> simp [blockStatusCodes, Err.status, Status.code]
  rule := by
    cases e with
    | invalidFrame rule => exact (Nat.mod_le _ _).trans h
    | _ => exact Nat.zero_le 5
  fault := fun i => by simp
  length := by rw [Err.results_rlen, Err.results_rbytes]; rfl
  bytes := by simp

theorem Results.reset_legal : ResultsLegal Results.reset where
  status := by decide
  rule := by decide
  fault := by decide
  length := by decide
  bytes := by decide

/-- A result file without error is legal where its `RLEN` and its fault states are. -/
theorem ResultsLegal.of_ok {rfault : Vector (BitVec 2) 24} {rbytes : List Byte} {rlen : Half} (rval : Word)
    (rvec : Vector Half 8) (hfault : ∀ i : Fin 24, rfault[i] ≠ 3#2) (hlen : rlen.toNat = rbytes.length)
    (hmax : rbytes.length ≤ 255) : ResultsLegal { Results.ok with rval, rvec, rlen, rbytes, rfault } where
  status := by simp [blockStatusCodes, Results.ok, Results.ofStatus, Status.code]
  rule := Nat.zero_le 5
  fault := hfault
  length := hlen
  bytes := hmax

theorem Results.ok_rfault_ne_three (i : Fin 24) : Results.ok.rfault[i] ≠ 3#2 := by
  revert i; decide

theorem Reports.legal {op : Op} {r : Results} (h : Reports op r) : ResultsLegal r := by
  cases h with
  | error he => exact Err.results_legal he
  | bytes _ hlen hmax => exact .of_ok _ _ Results.ok_rfault_ne_three hlen hmax
  | faults hv => exact .of_ok _ _ hv rfl (Nat.zero_le 255)
  | _ => exact .of_ok _ _ Results.ok_rfault_ne_three rfl (Nat.zero_le 255)

section
variable {cfg : Config} {s t : State} {op : Op} (h : Effect cfg s op t)
include h

/-- A written byte lies below `FLEN`, and a new filling of the buffer has `FLEN` bytes; the other effects leave the
buffer as it is, or empty. -/
theorem Effect.frameLegal (hs : FrameLegal cfg s) : FrameLegal cfg t := by
  obtain ⟨hwf, hin⟩ := hs
  cases h with
  | frameNew => exact frameLegal_of_no_bytes rfl
  | fbWrite b he hi =>
    refine ⟨Memory.write_wf hwf _ _, fun cell hc => ?_⟩
    rcases Memory.mem_write hc with rfl | hc
    · exact hi.trans_eq (State.flen_of_exp cfg he).symm
    · exact hin cell hc
  | receiveBytes he hlen =>
    refine ⟨Memory.ofBytes_wf _ _, fun cell hc => ?_⟩
    have hlt := (Memory.mem_ofBytes hc).2.1
    rw [Nat.zero_add, hlen] at hlt
    exact hlt.trans_eq (State.flen_of_exp cfg he).symm
  | @receiveFailed c he =>
    obtain ⟨-, -, -, -, -, -, -, -, hwf', hin'⟩ := drawFrame_spec (frameLen cfg c) (endExchange s)
    exact ⟨hwf', fun cell hc => (hin' cell hc).trans_eq (State.flen_of_exp cfg he).symm⟩
  | _ => exact ⟨hwf, hin⟩

theorem Effect.transmitLegal (hs : TransmitLegal cfg s) : TransmitLegal cfg t := by
  cases h with
  | build c => exact fun _ => ⟨c, rfl⟩
  | _ => exact hs

theorem Effect.legal (hs : Legal cfg s) : Legal cfg t :=
  ⟨h.frameLegal hs.frame, h.transmitLegal hs.transmit, h.reports_res.legal⟩

end

theorem Legal.setRes {cfg : Config} {s : State} (h : Legal cfg s) {r : Results} (hr : ResultsLegal r) :
    Legal cfg (s.setRes r) := ⟨h.frame, h.transmit, hr⟩

/-- What is to come is no part of the invariant. -/
theorem Legal.setInputs {cfg : Config} {s : State} (h : Legal cfg s) (is : List Input) : Legal cfg (s.setInputs is) :=
  ⟨h.frame, h.transmit, h.results⟩

/-- Nor is what is kept of the transport. -/
theorem Legal.setTransport {cfg : Config} {s : State} (h : Legal cfg s) (x : Transport) : Legal cfg (s.setTransport x) :=
  ⟨h.frame, h.transmit, h.results⟩

/-- A state with no buffer, `TXV` clear and the result file of reset is legal. -/
theorem legal_of_reset_values {cfg : Config} {s : State} (hfb : s.fb = []) (htxv : s.txv = false)
    (hres : s.res = Results.reset) : Legal cfg s where
  frame := frameLegal_of_no_bytes hfb
  transmit := fun h => by simp [htxv] at h
  results := hres ▸ Results.reset_legal

/-- Settles O56: an empty buffer and `TXV` clear ask nothing, and the result file of reset is legal. -/
theorem resetIsLegal : Obligations.ResetIsLegal := legal_of_reset_values rfl rfl rfl

/-- A `SEND` that is answered found a built frame and no reply awaited, and changes what is kept of the transport
alone. -/
theorem transportSend_next {ok : Bool} {s t : State} (h : transportSend ok s = .next t) :
    s.txv = true ∧ s.transport.awaiting = false ∧ t = s.setTransport
      (if ok = true then
        { s.transport with status := Status.ok.code, awaiting := true, sent := s.txb :: s.transport.sent }
      else { s.transport with status := Status.sendFailed.code }) := by
  unfold transportSend at h
  split at h
  · cases h
  next htxv =>
    split at h
    · cases h
    next hawait =>
      refine ⟨by simpa using htxv, by simpa using hawait, ?_⟩
      split at h <;> cases h <;> simp_all

theorem acceptRequest_legal {r : Request} {s t : State} (hs : Legal Config.device s) (h : acceptRequest r s = .next t) :
    Legal Config.device t := by
  rcases acceptRequest_cases h with ⟨i, -, h⟩ | ⟨stream, -, -, h⟩ | ⟨why, -, h⟩
  · exact (exec_effect h).legal hs
  · exact (exec_effect h).legal hs
  · rcases rejectRequest_cases why s with ⟨-, hr⟩ | ⟨-, hr⟩ | ⟨-, hr⟩ <;> rw [hr] at h <;> cases h
    all_goals exact hs.setRes (Err.results_legal trivial)

theorem acceptInput_legal {inp : Input} {s t : State} (hs : Legal Config.device s) (h : acceptInput inp s = .next t) :
    Legal Config.device t := by
  cases inp with
  | request r => exact acceptRequest_legal hs h
  | transportSend ok =>
    obtain ⟨-, -, rfl⟩ := transportSend_next h
    exact hs.setTransport _
  | transportOpen ok =>
    obtain rfl := Host.Outcome.next.inj h
    exact hs.setTransport _
  | reset =>
    obtain rfl := Host.Outcome.next.inj h
    exact legal_of_reset_values rfl rfl rfl

/-- Settles O57: nothing to come changes nothing, and every input keeps the invariant. -/
theorem stepKeepsLegal : Obligations.StepKeepsLegal := by
  intro s t hs h
  cases hin : s.inputs with
  | nil =>
    simp only [step, hin] at h
    exact Host.Outcome.next.inj h ▸ hs
  | cons inp rest =>
    rw [step_of_inputs hin] at h
    exact acceptInput_legal (hs.setInputs rest) h

end Sys2Proof.Machine
end

section
/-! PROOFS. Two statements of 20_memory.md: reads are idempotent (R45), and only command frames are sent (R47). They rest
on two laws of the section before: `exec_effect`, all that an operation can do, and `SameView.exec`, what it may read. -/

namespace Sys2Proof.Machine

/-! ## Reads are idempotent -/

theorem exec_answers (i : Instr) (s : State) : ∃ t, exec i s = .next t := by cases i <;> exact ⟨_, rfl⟩

/-- `BUILD` leaves the command frame, whatever `TXB` held (40_checksum_builder.md R104). -/
theorem runBuild_tx {cfg : Config} (hcfg : cfg.Admissible) (c : Command) (s : State) :
    (runBuild cfg c s).txb = commandFrame cfg c ∧ (runBuild cfg c s).txv = true := by
  have hreq : ¬ cfg.reqLen c ≠ 0 := by simp [hcfg.reqLenZero c]
  rw [runBuild, if_neg hreq]
  exact ⟨rfl, rfl⟩

/-- An operation done again leaves `TXB` and `TXV`: `BUILD` writes the same frame, and no other operation writes them. -/
theorem exec_again_tx {s t u : State} {i : Instr} (ht : exec i s = .next t) (hu : exec i t = .next u) :
    u.txb = t.txb ∧ u.txv = t.txv := by
  by_cases hop : i.op = .build
  · cases i <;> cases hop
    next c =>
      obtain rfl := Host.Outcome.next.inj ht
      obtain rfl := Host.Outcome.next.inj hu
      obtain ⟨htxb, htxv⟩ := runBuild_tx Config.device_admissible c s
      obtain ⟨htxb', htxv'⟩ := runBuild_tx Config.device_admissible c (runBuild Config.device c s)
      exact ⟨htxb'.trans htxb.symm, htxv'.trans htxv.symm⟩
  · exact (exec_effect hu).tx_eq hop

/-- Settles O55: an operation that keeps `EXP`, `FB` and the draws has, done again, the same view and so the same answer;
the transmit buffer is `exec_again_tx`, and the second run touches nothing else. -/
theorem readsAreIdempotent : Obligations.ReadsAreIdempotent := by
  intro s t i hnew hwrite hrecv ht hdraws
  obtain ⟨u, hu⟩ := exec_answers i t
  have heff := exec_effect ht
  have hview : SameView s t := ⟨(heff.exp_eq hnew).symm, (heff.fb_eq hnew hwrite hrecv).symm, hdraws.symm⟩
  obtain ⟨⟨hexp, hfb, hdraws'⟩, hres⟩ := hview.exec ht hu
  obtain ⟨htxb, htxv⟩ := exec_again_tx ht hu
  have htransport := (exec_effect hu).transport_eq hrecv
  have hinputs := (exec_effect hu).inputs_eq
  have hut : u = t := State.ext_fields hexp.symm hfb.symm htxb htxv hres.symm hinputs htransport hdraws'.symm
  rw [hu, hut]

/-! ## Only command frames are sent -/

/-- No operation of the block sends: `RECEIVE` ends an exchange, and the frames sent stay (60_exceptions.md R240). -/
theorem Effect.sent_eq {cfg : Config} {s t : State} {op : Op} (h : Effect cfg s op t) :
    t.transport.sent = s.transport.sent := by cases h <;> rfl

/-- A request that is answered has had the effect of some operation; one turned away at decode, that of an error. -/
theorem acceptRequest_effect {r : Request} {s t : State} (h : acceptRequest r s = .next t) :
    ∃ op, Effect Config.device s op t := by
  rcases acceptRequest_cases h with ⟨i, -, h⟩ | ⟨stream, -, -, h⟩ | ⟨why, -, h⟩
  · exact ⟨i.op, exec_effect h⟩
  · exact ⟨.receive, exec_effect h⟩
  · refine ⟨.validate, ?_⟩
    rcases rejectRequest_cases why s with ⟨-, hr⟩ | ⟨-, hr⟩ | ⟨-, hr⟩ <;> rw [hr] at h <;> cases h
    all_goals exact .reports (.error trivial)

/-- An input adds at most one frame to those sent: the content of `TXB`, by a `SEND` with `TXV` set (60_exceptions.md
R240; 70_reset_and_hazards.md R256). -/
theorem acceptInput_sent {inp : Input} {s t : State} (h : acceptInput inp s = .next t) :
    t.transport.sent = s.transport.sent ∨ (s.txv = true ∧ t.transport.sent = s.txb :: s.transport.sent) := by
  cases inp with
  | request r =>
    obtain ⟨_, heff⟩ := acceptRequest_effect h
    exact .inl heff.sent_eq
  | transportSend ok =>
    obtain ⟨htxv, -, rfl⟩ := transportSend_next h
    cases ok
    · exact .inl rfl
    · exact .inr ⟨htxv, rfl⟩
  | transportOpen ok =>
    obtain rfl := Host.Outcome.next.inj h
    exact .inl rfl
  | reset =>
    obtain rfl := Host.Outcome.next.inj h
    exact .inl rfl

theorem acceptInput_transmitLegal {inp : Input} {s t : State} (hs : TransmitLegal Config.device s)
    (h : acceptInput inp s = .next t) : TransmitLegal Config.device t := by
  cases inp with
  | request r =>
    obtain ⟨_, heff⟩ := acceptRequest_effect h
    exact heff.transmitLegal hs
  | transportSend ok =>
    obtain ⟨-, -, rfl⟩ := transportSend_next h
    exact hs
  | transportOpen ok =>
    obtain rfl := Host.Outcome.next.inj h
    exact hs
  | reset =>
    obtain rfl := Host.Outcome.next.inj h
    exact fun htxv => nomatch htxv

/-- A step that answers changes nothing, or is the next input taking effect. -/
theorem step_next {s t : State} (h : step s = .next t) :
    t = s ∨ ∃ inp rest, s.inputs = inp :: rest ∧ acceptInput inp (s.setInputs rest) = .next t := by
  cases hin : s.inputs with
  | nil =>
    simp only [step, hin] at h
    exact .inl (Host.Outcome.next.inj h).symm
  | cons inp rest =>
    rw [step_of_inputs hin] at h
    exact .inr ⟨inp, rest, rfl, h⟩

/-- Settles O58: the only frame a step can add is `TXB` with `TXV` set, which the premise makes a command frame. -/
theorem onlyCommandFramesAreSent : Obligations.OnlyCommandFramesAreSent := by
  intro s t htx hsent h
  rcases step_next h with rfl | ⟨inp, rest, -, h⟩
  · exact ⟨htx, hsent⟩
  · refine ⟨acceptInput_transmitLegal (s := s.setInputs rest) htx h, ?_⟩
    rcases acceptInput_sent h with hs | ⟨htxv, hs⟩ <;> rw [hs]
    · exact hsent
    · exact List.forall_mem_cons.mpr ⟨htx htxv, hsent⟩

end Sys2Proof.Machine
end

section
/-! PROOFS. The statements of 30_encoding.md: decode and encode agree (R61, R63, R67), a decoded word is the encoding of
its instruction (R64, R65), what the port answers to a word that is no instruction (R64, R65), and that a step runs what
it decodes. Before them stand the layout of a request word, field by field, and the decode procedure, step by step. -/

namespace Sys2Proof

/-! ## The numbers of the enumerations -/

/-- OP values and operations are in bijection with the map of R63: an OP value names the operation whose code it is. -/
theorem Op.ofCode_eq_some_iff {b : Byte} {op : Op} : Op.ofCode b = some op ↔ op.code = b := by
  refine ⟨fun h => ?_, fun h => h ▸ Laws.FormatHeld.ofCode_code op⟩
  simpa using List.find?_some h

theorem Op.ofCode_eq_none_iff {b : Byte} : Op.ofCode b = none ↔ ∀ op : Op, op.code ≠ b := by
  simp only [Option.eq_none_iff_forall_ne_some, ne_eq, Op.ofCode_eq_some_iff]

theorem Command.ofIndex_eq_some_iff {n : Nat} {c : Command} : Command.ofIndex n = some c ↔ c.index = n := by
  constructor
  · intro h
    obtain ⟨hn, rfl⟩ := List.getElem?_eq_some_iff.mp h
    change n < 11 at hn
    interval_cases n <;> rfl
  · rintro rfl
    cases c <;> rfl

theorem Command.ofIndex_eq_none {n : Nat} (h : 11 ≤ n) : Command.ofIndex n = none := List.getElem?_eq_none h

theorem Command.index_lt (c : Command) : c.index < 16 := by cases c <;> decide

theorem FaultId.ofFid_eq_some_iff {n : Nat} {f : FaultId} : FaultId.ofFid n = some f ↔ f.fid = n := by
  constructor
  · intro h
    obtain ⟨hn, rfl⟩ := List.getElem?_eq_some_iff.mp h
    change n < 24 at hn
    interval_cases n <;> rfl
  · rintro rfl
    cases f <;> rfl

theorem FaultId.ofFid_eq_none {n : Nat} (h : 24 ≤ n) : FaultId.ofFid n = none := List.getElem?_eq_none h

theorem FaultId.fid_lt (f : FaultId) : f.fid < 32 := by cases f <;> decide

/-! ## A request word as its fields (30_encoding.md R61)

A word of each format is the concatenation of its fields, with zeros where the format has no field. -/

/-- The field in the middle of a concatenation. -/
theorem extractLsb'_append_middle {n m k : Nat} (hi : BitVec n) (mid : BitVec m) (lo : BitVec k) :
    (hi ++ mid ++ lo).extractLsb' k m = mid := by
  rw [BitVec.extractLsb'_append_eq_of_le (Nat.le_refl k), Nat.sub_self, BitVec.extractLsb'_append_eq_right]

theorem opField_append (hi : BitVec 24) (op : Byte) : opField (hi ++ op) = op := BitVec.extractLsb'_append_eq_right

theorem cmdField_append (hi : BitVec 20) (cmd : BitVec 4) (op : Byte) : cmdField (hi ++ cmd ++ op) = cmd :=
  extractLsb'_append_middle hi cmd op

theorem indexField_append (hi : BitVec 15) (index : BitVec 9) (op : Byte) : indexField (hi ++ index ++ op) = index :=
  extractLsb'_append_middle hi index op

theorem fidField_append (hi : BitVec 19) (fid : BitVec 5) (op : Byte) : fidField (hi ++ fid ++ op) = fid :=
  extractLsb'_append_middle hi fid op

theorem writeByteField_append (byte : Byte) (gap : BitVec 7) (index : BitVec 9) (op : Byte) :
    writeByteField (byte ++ gap ++ index ++ op) = byte := by
  rw [writeByteField, BitVec.extractLsb'_append_eq_of_le (by decide), BitVec.extractLsb'_append_eq_of_le (by decide)]
  exact BitVec.extractLsb'_append_eq_left

theorem faultByteField_append (hi byte : Byte) (gap : BitVec 3) (fid : BitVec 5) (op : Byte) :
    faultByteField (hi ++ byte ++ gap ++ fid ++ op) = byte := by
  rw [faultByteField, BitVec.extractLsb'_append_eq_of_le (by decide), BitVec.extractLsb'_append_eq_of_le (by decide)]
  exact extractLsb'_append_middle hi byte gap

/-- The value of a concatenation: the upper part counts in units of the lower part's width. -/
theorem toNat_append_eq_add {n m : Nat} (hi : BitVec n) (lo : BitVec m) :
    (hi ++ lo).toNat = hi.toNat * 2 ^ m + lo.toNat := by
  rw [BitVec.toNat_append, ← Nat.shiftLeft_add_eq_or_of_lt lo.isLt, Nat.shiftLeft_eq]

theorem opField_toNat (w : Word) : (opField w).toNat = w.toNat % 256 := by
  rw [opField, BitVec.extractLsb'_toNat, Nat.shiftRight_zero]

/-! ### Must-be-zero bits -/

/-- Where every bit of a field must be zero, a word with no must-be-zero bit set has that field zero. -/
theorem extractLsb'_eq_zero_of_and_eq_zero {w mask : Word} (h : w &&& mask = 0#32) (start len : Nat)
    (hmask : ∀ i < len, mask.getLsbD (start + i) = true) : w.extractLsb' start len = 0#len := by
  refine BitVec.eq_of_getLsbD_eq fun i hi => ?_
  have hbit : (w &&& mask).getLsbD (start + i) = false := by rw [h, BitVec.getLsbD_zero]
  rw [BitVec.getLsbD_and, hmask i hi, Bool.and_true] at hbit
  rw [BitVec.getLsbD_extractLsb', hbit, Bool.and_false, BitVec.getLsbD_zero]

/-- A field splits into two adjoining ones. -/
theorem extractLsb'_split (w : Word) (start len len' : Nat) :
    w.extractLsb' start (len' + len) = w.extractLsb' (start + len) len' ++ w.extractLsb' start len :=
  (BitVec.extractLsb'_append_extractLsb'_eq_extractLsb' rfl).symm

theorem eq_append_opField (w : Word) : w = w.extractLsb' 8 24 ++ opField w :=
  BitVec.extractLsb'_eq_self.symm.trans (extractLsb'_split w 0 8 24)

section
variable {w : Word}

theorem eq_fields_of_format_n (h : w &&& Format.n.mustBeZero = 0#32) : w = 0#24 ++ opField w := by
  rw [← extractLsb'_eq_zero_of_and_eq_zero h 8 24 (by decide)]
  exact eq_append_opField w

theorem eq_fields_of_format_c (h : w &&& Format.c.mustBeZero = 0#32) : w = 0#20 ++ cmdField w ++ opField w := by
  have hsplit : w.extractLsb' 8 24 = w.extractLsb' 12 20 ++ cmdField w := extractLsb'_split w 8 4 20
  rw [← extractLsb'_eq_zero_of_and_eq_zero h 12 20 (by decide), ← hsplit]
  exact eq_append_opField w

theorem eq_fields_of_format_w (h : w &&& Format.w.mustBeZero = 0#32) :
    w = writeByteField w ++ 0#7 ++ indexField w ++ opField w := by
  have hsplit : w.extractLsb' 8 24 = w.extractLsb' 17 15 ++ indexField w := extractLsb'_split w 8 9 15
  have hsplit' : w.extractLsb' 17 15 = writeByteField w ++ w.extractLsb' 17 7 := extractLsb'_split w 17 7 8
  rw [← extractLsb'_eq_zero_of_and_eq_zero h 17 7 (by decide), ← hsplit', ← hsplit]
  exact eq_append_opField w

theorem eq_fields_of_format_r (h : w &&& Format.r.mustBeZero = 0#32) : w = 0#15 ++ indexField w ++ opField w := by
  have hsplit : w.extractLsb' 8 24 = w.extractLsb' 17 15 ++ indexField w := extractLsb'_split w 8 9 15
  rw [← extractLsb'_eq_zero_of_and_eq_zero h 17 15 (by decide), ← hsplit]
  exact eq_append_opField w

theorem eq_fields_of_format_f (h : w &&& Format.f.mustBeZero = 0#32) : w = 0#19 ++ fidField w ++ opField w := by
  have hsplit : w.extractLsb' 8 24 = w.extractLsb' 13 19 ++ fidField w := extractLsb'_split w 8 5 19
  rw [← extractLsb'_eq_zero_of_and_eq_zero h 13 19 (by decide), ← hsplit]
  exact eq_append_opField w

theorem eq_fields_of_format_fb (h : w &&& Format.fb.mustBeZero = 0#32) :
    w = 0#8 ++ faultByteField w ++ 0#3 ++ fidField w ++ opField w := by
  have hsplit : w.extractLsb' 8 24 = w.extractLsb' 13 19 ++ fidField w := extractLsb'_split w 8 5 19
  have hsplit' : w.extractLsb' 13 19 = w.extractLsb' 16 16 ++ w.extractLsb' 13 3 := extractLsb'_split w 13 3 16
  have hsplit'' : w.extractLsb' 16 16 = w.extractLsb' 24 8 ++ faultByteField w := extractLsb'_split w 16 8 8
  rw [← extractLsb'_eq_zero_of_and_eq_zero h 24 8 (by decide), ← extractLsb'_eq_zero_of_and_eq_zero h 13 3 (by decide),
    ← hsplit'', ← hsplit', ← hsplit]
  exact eq_append_opField w

end

theorem and_mustBeZero_of_format_c (cmd : BitVec 4) (op : Byte) :
    (0#20 ++ cmd ++ op) &&& Format.c.mustBeZero = 0#32 := by
  have hmask : Format.c.mustBeZero = BitVec.allOnes 20 ++ 0#4 ++ 0#8 := by decide
  rw [hmask, BitVec.and_append, BitVec.and_append, BitVec.zero_and, BitVec.and_zero, BitVec.and_zero]
  rfl

theorem and_mustBeZero_of_format_f (fid : BitVec 5) (op : Byte) :
    (0#19 ++ fid ++ op) &&& Format.f.mustBeZero = 0#32 := by
  have hmask : Format.f.mustBeZero = BitVec.allOnes 19 ++ 0#5 ++ 0#8 := by decide
  rw [hmask, BitVec.and_append, BitVec.and_append, BitVec.zero_and, BitVec.and_zero, BitVec.and_zero]
  rfl

theorem and_mustBeZero_of_format_fb (byte : Byte) (fid : BitVec 5) (op : Byte) :
    (0#8 ++ byte ++ 0#3 ++ fid ++ op) &&& Format.fb.mustBeZero = 0#32 := by
  have hmask : Format.fb.mustBeZero = BitVec.allOnes 8 ++ 0#8 ++ BitVec.allOnes 3 ++ 0#5 ++ 0#8 := by decide
  rw [hmask, BitVec.and_append, BitVec.and_append, BitVec.and_append, BitVec.and_append, BitVec.zero_and,
    BitVec.zero_and, BitVec.and_zero, BitVec.and_zero, BitVec.and_zero]
  rfl

/-! ### Words written out as numbers -/

theorem ofNat_eq_append_of_format_c (op : Byte) {cmd : Nat} (h : cmd < 16) :
    BitVec.ofNat 32 (op.toNat + 256 * cmd) = 0#20 ++ BitVec.ofNat 4 cmd ++ op := by
  apply BitVec.eq_of_toNat_eq
  have hop : op.toNat < 256 := op.isLt
  rw [toNat_append_eq_add, toNat_append_eq_add]
  simp only [BitVec.toNat_ofNat]
  omega

theorem ofNat_eq_append_of_format_f (op : Byte) {fid : Nat} (h : fid < 32) :
    BitVec.ofNat 32 (op.toNat + 256 * fid) = 0#19 ++ BitVec.ofNat 5 fid ++ op := by
  apply BitVec.eq_of_toNat_eq
  have hop : op.toNat < 256 := op.isLt
  rw [toNat_append_eq_add, toNat_append_eq_add]
  simp only [BitVec.toNat_ofNat]
  omega

theorem ofNat_eq_append_of_format_fb (op : Byte) {fid byte : Nat} (hfid : fid < 32) (hbyte : byte < 256) :
    BitVec.ofNat 32 (op.toNat + 256 * fid + 65536 * byte) =
      0#8 ++ BitVec.ofNat 8 byte ++ 0#3 ++ BitVec.ofNat 5 fid ++ op := by
  apply BitVec.eq_of_toNat_eq
  have hop : op.toNat < 256 := op.isLt
  rw [toNat_append_eq_add, toNat_append_eq_add, toNat_append_eq_add, toNat_append_eq_add]
  simp only [BitVec.toNat_ofNat]
  omega

/-- A bound on a number is one on the field that holds it. -/
theorem le_toNat_ofNat {w k n : Nat} (hk : k ≤ n) (hn : n < 2 ^ w) : k ≤ (BitVec.ofNat w n).toNat := by
  rwa [BitVec.toNat_ofNat, Nat.mod_eq_of_lt hn]

/-! ### The words of the encoder -/

@[simp] theorem cmdField_wordC (op : Op) (c : Command) : (cmdField (wordC op c)).toNat = c.index := by
  rw [wordC, cmdField_append, BitVec.toNat_ofNat, Nat.mod_eq_of_lt c.index_lt]

@[simp] theorem fidField_wordF (op : Op) (f : FaultId) : (fidField (wordF op f)).toNat = f.fid := by
  rw [wordF, fidField_append, BitVec.toNat_ofNat, Nat.mod_eq_of_lt f.fid_lt]

@[simp] theorem fidField_wordFB (op : Op) (f : FaultId) (byte : Byte) :
    (fidField (wordFB op f byte)).toNat = f.fid := by
  rw [wordFB, fidField_append, BitVec.toNat_ofNat, Nat.mod_eq_of_lt f.fid_lt]

@[simp] theorem faultByteField_wordFB (op : Op) (f : FaultId) (byte : Byte) :
    faultByteField (wordFB op f byte) = byte := faultByteField_append ..

theorem indexField_wordW (op : Op) {index : Nat} (byte : Byte) (h : index < indexBound) :
    (indexField (wordW op index byte)).toNat = index := by
  rw [wordW, indexField_append, BitVec.toNat_ofNat]
  exact Nat.mod_eq_of_lt h

@[simp] theorem writeByteField_wordW (op : Op) (index : Nat) (byte : Byte) :
    writeByteField (wordW op index byte) = byte := writeByteField_append ..

theorem indexField_wordR (op : Op) {index : Nat} (h : index < indexBound) :
    (indexField (wordR op index)).toNat = index := by
  rw [wordR, indexField_append, BitVec.toNat_ofNat]
  exact Nat.mod_eq_of_lt h

section
variable {op : Op} {w : Word} (hop : op.code = opField w)
include hop

theorem wordN_eq (h : w &&& Format.n.mustBeZero = 0#32) : wordN op = w := by
  rw [wordN, hop, ← eq_fields_of_format_n h]

theorem wordC_eq (h : w &&& Format.c.mustBeZero = 0#32) {c : Command} (hc : c.index = (cmdField w).toNat) :
    wordC op c = w := by
  rw [wordC, hop, hc, BitVec.ofNat_toNat, BitVec.setWidth_eq, ← eq_fields_of_format_c h]

theorem wordW_eq (h : w &&& Format.w.mustBeZero = 0#32) :
    wordW op (indexField w).toNat (writeByteField w) = w := by
  rw [wordW, hop, BitVec.ofNat_toNat, BitVec.setWidth_eq, ← eq_fields_of_format_w h]

theorem wordR_eq (h : w &&& Format.r.mustBeZero = 0#32) : wordR op (indexField w).toNat = w := by
  rw [wordR, hop, BitVec.ofNat_toNat, BitVec.setWidth_eq, ← eq_fields_of_format_r h]

theorem wordF_eq (h : w &&& Format.f.mustBeZero = 0#32) {f : FaultId} (hf : f.fid = (fidField w).toNat) :
    wordF op f = w := by
  rw [wordF, hop, hf, BitVec.ofNat_toNat, BitVec.setWidth_eq, ← eq_fields_of_format_f h]

theorem wordFB_eq (h : w &&& Format.fb.mustBeZero = 0#32) {f : FaultId} (hf : f.fid = (fidField w).toNat) :
    wordFB op f (faultByteField w) = w := by
  rw [wordFB, hop, hf, BitVec.ofNat_toNat, BitVec.setWidth_eq, ← eq_fields_of_format_fb h]

end

/-! ## The decode procedure (30_encoding.md R64) -/

/-- Step 4 for format C succeeds exactly with the command whose index CMD is. -/
theorem withCommand_eq_ok_iff {w : Word} {k : Command → Instr} {i : Instr} :
    withCommand w k = .ok i ↔ ∃ c : Command, c.index = (cmdField w).toNat ∧ k c = i := by
  simp only [← Command.ofIndex_eq_some_iff]
  unfold withCommand
  cases Command.ofIndex (cmdField w).toNat <;> simp

theorem withCommand_of_no_command {w : Word} (k : Command → Instr) (h : 11 ≤ (cmdField w).toNat) :
    withCommand w k = .error .illegalOperand := by
  simp only [withCommand, Command.ofIndex_eq_none h]

/-- Step 4 for formats F and FB succeeds exactly with the fault whose id FID is. -/
theorem withFault_eq_ok_iff {w : Word} {k : FaultId → Instr} {i : Instr} :
    withFault w k = .ok i ↔ ∃ f : FaultId, f.fid = (fidField w).toNat ∧ k f = i := by
  simp only [← FaultId.ofFid_eq_some_iff]
  unfold withFault
  cases FaultId.ofFid (fidField w).toNat <;> simp

theorem withFault_of_no_fault {w : Word} (k : FaultId → Instr) (h : 24 ≤ (fidField w).toNat) :
    withFault w k = .error .illegalOperand := by
  simp only [withFault, FaultId.ofFid_eq_none h]

/-- Step 4 for format S: a `CKSUM` has a byte sequence for its stream. -/
theorem decodeOperands_cksum_eq_ok_iff {r : Request} {i : Instr} :
    decodeOperands .cksum r = .ok i ↔ ∃ bs, r.stream = .bytes bs ∧ .cksum bs = i := by
  unfold decodeOperands
  cases r.stream <;> simp

section
variable {r : Request}

/-- Step 1: an OP value that is no operation's. -/
theorem decode_of_unassigned (h : ∀ op : Op, op.code ≠ opField r.word) : decode r = .error .illegalOp := by
  simp only [decode, Op.ofCode_eq_none_iff.mpr h]

variable {op : Op} (hop : op.code = opField r.word)
include hop

/-- Step 2: a must-be-zero bit is set. -/
theorem decode_of_mustBeZero_set (h : r.word &&& op.format.mustBeZero ≠ 0#32) : decode r = .error .illegalOp := by
  simp only [decode, Op.ofCode_eq_some_iff.mpr hop, if_pos h]

/-- Step 4, where the steps before it pass. -/
theorem decode_of_legal_op (h : r.word &&& op.format.mustBeZero = 0#32) (hagent : op = .receive → r.agent = .transport) :
    decode r = decodeOperands op r := by
  have hhost : ¬ (op = .receive ∧ r.agent = .host) := fun ⟨hrecv, hhost⟩ => by simp [hagent hrecv] at hhost
  simp only [decode, Op.ofCode_eq_some_iff.mpr hop, if_neg (not_not_intro h), if_neg hhost]

end

/-- A request that decodes has passed every step. -/
theorem decode_eq_ok {r : Request} {i : Instr} (h : decode r = .ok i) :
    ∃ op : Op, op.code = opField r.word ∧ r.word &&& op.format.mustBeZero = 0#32 ∧
      (op = .receive → r.agent = .transport) ∧ decodeOperands op r = .ok i := by
  cases hcode : Op.ofCode (opField r.word) with
  | none => simp only [decode, hcode] at h; cases h
  | some op =>
    simp only [decode, hcode] at h
    split at h
    · cases h
    next hzero =>
      split at h
      · cases h
      next hhost =>
        refine ⟨op, Op.ofCode_eq_some_iff.mp hcode, not_not.mp hzero, fun hrecv => ?_, h⟩
        cases hagent : r.agent with
        | host => exact absurd ⟨hrecv, hagent⟩ hhost
        | transport => rfl

/-! ### Operands out of range -/

theorem decodeOperands_of_format_c {op : Op} (h : op.format = .c) :
    ∃ k, ∀ r, decodeOperands op r = withCommand r.word k := by
  cases op with
  | cmdInfo | build | frameNew => exact ⟨_, fun _ => rfl⟩
  | _ => cases h

theorem decode_of_command_out_of_range {r : Request} {op : Op} (hformat : op.format = .c) {cmd : BitVec 4}
    (hw : r.word = 0#20 ++ cmd ++ op.code) (hcmd : 11 ≤ cmd.toNat) : decode r = .error .illegalOperand := by
  have hop : op.code = opField r.word := by rw [hw, opField_append]
  have hzero : r.word &&& op.format.mustBeZero = 0#32 := by rw [hformat, hw, and_mustBeZero_of_format_c]
  obtain ⟨k, hk⟩ := decodeOperands_of_format_c hformat
  rw [decode_of_legal_op hop hzero (by rintro rfl; cases hformat), hk]
  exact withCommand_of_no_command k (by rwa [hw, cmdField_append])

theorem decode_faultByName_out_of_range {r : Request} {fid : BitVec 5}
    (hw : r.word = 0#19 ++ fid ++ Op.faultByName.code) (hfid : 24 ≤ fid.toNat) :
    decode r = .error .illegalOperand := by
  have hop : Op.faultByName.code = opField r.word := by rw [hw, opField_append]
  rw [decode_of_legal_op hop (by rw [hw]; exact and_mustBeZero_of_format_f ..) nofun]
  exact withFault_of_no_fault _ (by rwa [hw, fidField_append])

theorem decode_faultDecode_out_of_range {r : Request} {byte : Byte} {fid : BitVec 5}
    (hw : r.word = 0#8 ++ byte ++ 0#3 ++ fid ++ Op.faultDecode.code) (hfid : 24 ≤ fid.toNat) :
    decode r = .error .illegalOperand := by
  have hop : Op.faultDecode.code = opField r.word := by rw [hw, opField_append]
  rw [decode_of_legal_op hop (by rw [hw]; exact and_mustBeZero_of_format_fb ..) nofun]
  exact withFault_of_no_fault _ (by rwa [hw, fidField_append])

/-! ## Decode and encode agree -/

/-- Every instruction's word passes the first two steps of the decode procedure. -/
theorem formatHeld : ∀ i : Instr, Laws.FormatHeld.Statement i
  | .cksum bs => Laws.FormatHeld.cksum bs
  | .cmdInfo c => Laws.FormatHeld.cmdInfo c
  | .build c => Laws.FormatHeld.build c
  | .frameNew c => Laws.FormatHeld.frameNew c
  | .fbWrite index byte => Laws.FormatHeld.fbWrite index byte
  | .fbRead index => Laws.FormatHeld.fbRead index
  | .receive st => Laws.FormatHeld.receive st
  | .validate => Laws.FormatHeld.validate
  | .payload => Laws.FormatHeld.payload
  | .getCellVoltages => Laws.FormatHeld.getCellVoltages
  | .getCurrent => Laws.FormatHeld.getCurrent
  | .getTemperature => Laws.FormatHeld.getTemperature
  | .getRemainingCapacity => Laws.FormatHeld.getRemainingCapacity
  | .getDesignCapacity => Laws.FormatHeld.getDesignCapacity
  | .getFullChargeCapacity => Laws.FormatHeld.getFullChargeCapacity
  | .getAbsoluteSoc => Laws.FormatHeld.getAbsoluteSoc
  | .getRelativeSoc => Laws.FormatHeld.getRelativeSoc
  | .getStateOfHealth => Laws.FormatHeld.getStateOfHealth
  | .getModuleVoltage => Laws.FormatHeld.getModuleVoltage
  | .getFailStatus1 => Laws.FormatHeld.getFailStatus1
  | .getFailStatus2 => Laws.FormatHeld.getFailStatus2
  | .getFailStatus3 => Laws.FormatHeld.getFailStatus3
  | .faultDecode f byte => Laws.FormatHeld.faultDecode f byte
  | .faultByName f => Laws.FormatHeld.faultByName f
  | .faultIter => Laws.FormatHeld.faultIter

/-- The operands that the encoder put into the word are the ones that step 4 reads. -/
theorem decodeOperands_encode {i : Instr} (h : i.wellFormed = true) : decodeOperands i.op (encode i) = .ok i := by
  cases i with
  | cmdInfo c | build c | frameNew c => exact withCommand_eq_ok_iff.mpr ⟨c, (cmdField_wordC _ c).symm, rfl⟩
  | fbWrite index byte =>
    have hindex : (indexField (wordW .fbWrite index byte)).toNat = index :=
      indexField_wordW _ byte (of_decide_eq_true h)
    simp only [decodeOperands, Instr.op, encode, encodeWord, hindex, writeByteField_wordW]
  | fbRead index =>
    have hindex : (indexField (wordR .fbRead index)).toNat = index := indexField_wordR _ (of_decide_eq_true h)
    simp only [decodeOperands, Instr.op, encode, encodeWord, hindex]
  | faultDecode f byte =>
    refine withFault_eq_ok_iff.mpr ⟨f, (fidField_wordFB _ f byte).symm, ?_⟩
    simp only [encode, encodeWord, faultByteField_wordFB]
  | faultByName f => exact withFault_eq_ok_iff.mpr ⟨f, (fidField_wordF _ f).symm, rfl⟩
  | _ => rfl

/-- Settles O1: the word of an instruction passes steps 1 and 2, its agent passes step 3, and step 4 reads its operands
back. -/
theorem decodeEncode : Obligations.DecodeEncode := by
  intro i hwf
  obtain ⟨hcode, hzero⟩ := formatHeld i
  have hagent : i.op = .receive → (encode i).agent = .transport := fun hrecv => if_pos hrecv
  rw [decode_of_legal_op (Op.ofCode_eq_some_iff.mp hcode) hzero hagent, decodeOperands_encode hwf]

section
variable {r : Request} {op : Op} {i : Instr} (h : decodeOperands op r = .ok i)
include h

/-- What step 4 reads from a word that passed steps 1 and 2 is a well-formed instruction with that word: every bit is a
bit of OP, of an operand, or a must-be-zero bit. -/
theorem encodeWord_of_decodeOperands (hop : op.code = opField r.word)
    (hzero : r.word &&& op.format.mustBeZero = 0#32) :
    i.op = op ∧ i.wellFormed = true ∧ encodeWord i = r.word := by
  cases op with
  | cksum =>
    obtain ⟨bs, -, rfl⟩ := decodeOperands_cksum_eq_ok_iff.mp h
    exact ⟨rfl, rfl, wordN_eq hop hzero⟩
  | cmdInfo | build | frameNew =>
    obtain ⟨c, hc, rfl⟩ := withCommand_eq_ok_iff.mp h
    exact ⟨rfl, rfl, wordC_eq hop hzero hc⟩
  | fbWrite =>
    cases h
    exact ⟨rfl, decide_eq_true (indexField r.word).isLt, wordW_eq hop hzero⟩
  | fbRead =>
    cases h
    exact ⟨rfl, decide_eq_true (indexField r.word).isLt, wordR_eq hop hzero⟩
  | faultDecode =>
    obtain ⟨f, hf, rfl⟩ := withFault_eq_ok_iff.mp h
    exact ⟨rfl, rfl, wordFB_eq hop hzero hf⟩
  | faultByName =>
    obtain ⟨f, hf, rfl⟩ := withFault_eq_ok_iff.mp h
    exact ⟨rfl, rfl, wordF_eq hop hzero hf⟩
  | _ =>
    cases h
    exact ⟨rfl, rfl, wordN_eq hop hzero⟩

theorem encodeStream_of_decodeOperands (hop : op = .cksum ∨ op = .receive) : encodeStream i = r.stream := by
  rcases hop with rfl | rfl
  · obtain ⟨bs, hst, rfl⟩ := decodeOperands_cksum_eq_ok_iff.mp h
    exact hst.symm
  · cases h
    rfl

end

/-- Settles O2: a request that decodes passed steps 1 to 3, and step 4 reads back the word and the stream. -/
theorem decodedWordIsEncoding : Obligations.DecodedWordIsEncoding := by
  intro r i h
  obtain ⟨op, hop, hzero, hagent, hoperands⟩ := decode_eq_ok h
  obtain ⟨rfl, hwf, hword⟩ := encodeWord_of_decodeOperands hoperands hop hzero
  exact ⟨hwf, hword, encodeStream_of_decodeOperands hoperands, hagent⟩

/-- Settles O3, by evaluation of the decoder on the six words. -/
theorem workedEncodings : Obligations.WorkedEncodings := ⟨rfl, rfl, rfl, rfl, rfl, rfl⟩

end Sys2Proof

namespace Sys2Proof.Machine

/-! ## A step on a request -/

section
variable {s : State} {r : Request} {rest : List Input} (hin : s.inputs = .request r :: rest)
include hin

/-- A request that decode turns away takes effect at the request port alone. -/
theorem step_of_decode_error {why : Reject} (h : decode r = .error why) :
    step s = rejectRequest why (s.setInputs rest) := by
  rw [step_of_inputs hin]
  simp only [acceptInput, acceptRequest, h]

theorem step_of_illegalOp (h : decode r = .error .illegalOp) :
    step s = .next ((s.setInputs rest).setRes { Results.cleared with rstatus := 0x0E#8 }) :=
  step_of_decode_error hin h

theorem step_of_illegalOperand (h : decode r = .error .illegalOperand) :
    step s = .next ((s.setInputs rest).setRes { Results.cleared with rstatus := 0x0F#8 }) :=
  step_of_decode_error hin h

end

/-- An operation comes as it is, a `RECEIVE` where the link is open and the buffer is not for another command
(70_reset_and_hazards.md R251, R255). -/
theorem arriving_of_open {cfg : Config} {s : State} {i : Instr}
    (h : i.op = .receive → s.transport.opened = true ∧ bufferForAnother cfg s = false) : arriving cfg s i = .ok i := by
  rcases arriving_cases cfg s i with harr | ⟨hclosed, hop, -⟩ | ⟨hbuf, hop, -⟩
  · exact harr
  · simp [(h hop).1] at hclosed
  · simp [(h hop).2] at hbuf

/-- Settles O4: the operation reaches the block as it was decoded; taking the request from the list changes neither the
link nor the buffer. -/
theorem stepRunsDecoded : Obligations.StepRunsDecoded := by
  intro s r rest i hin hdecode hrecv
  have harr : arriving Config.device (s.setInputs rest) i = .ok i := arriving_of_open hrecv
  rw [step_of_inputs hin]
  simp only [acceptInput, acceptRequest, hdecode, harr]

/-! ## Requests that are no instruction -/

/-- Settles O5: no operation's code lies in the listed ranges, so step 1 turns the request away. -/
theorem unassignedOps : Obligations.UnassignedOps := by
  intro s r rest hin op hrange
  refine step_of_illegalOp hin (decode_of_unassigned fun o hcode => ?_)
  have hop : op = o.code.toNat := by rw [hcode, opField_toNat]
  rw [hop] at hrange
  revert hrange
  cases o <;> decide

/-- Settles O6: the listed pairs are the operations with the must-be-zero bits of their formats, so step 2 turns the
request away. -/
theorem mustBeZeroBits : Obligations.MustBeZeroBits := by
  intro s r rest op mask hin hmem hop hset
  obtain ⟨o, -, ho⟩ : ∃ o ∈ Op.all, (o.code.toNat, o.format.mustBeZero) = (op, mask) := List.mem_map.mp hmem
  obtain ⟨hcode, rfl⟩ := Prod.mk.inj ho
  have hfield : o.code = opField r.word := BitVec.eq_of_toNat_eq (by rw [hcode, opField_toNat, hop])
  exact step_of_illegalOp hin (decode_of_mustBeZero_set hfield hset)

/-- Settles O7: each word is the concatenation of its fields, it passes steps 1 to 3, and step 4 finds no command or no
fault. -/
theorem illegalOperands : Obligations.IllegalOperands := by
  intro s r rest hin hword
  refine step_of_illegalOperand hin ?_
  rcases hword with ⟨op, cmd, hop, hlo, hhi, hw⟩ | ⟨fid, hlo, hhi, hw⟩ | ⟨fid, byte, hlo, hhi, hbyte, hw⟩
  · obtain ⟨o, hformat, rfl⟩ : ∃ o : Op, o.format = .c ∧ o.code.toNat = op := by
      rcases hop with rfl | rfl | rfl
      · exact ⟨.cmdInfo, rfl, rfl⟩
      · exact ⟨.build, rfl, rfl⟩
      · exact ⟨.frameNew, rfl, rfl⟩
    exact decode_of_command_out_of_range hformat (hw.trans (ofNat_eq_append_of_format_c _ (by omega)))
      (le_toNat_ofNat hlo (by omega))
  · exact decode_faultByName_out_of_range (hw.trans (ofNat_eq_append_of_format_f Op.faultByName.code (by omega)))
      (le_toNat_ofNat hlo (by omega))
  · exact decode_faultDecode_out_of_range
      (hw.trans (ofNat_eq_append_of_format_fb Op.faultDecode.code (by omega) (by omega)))
      (le_toNat_ofNat hlo (by omega))

end Sys2Proof.Machine
end

section
/-! PROOFS. The statements of 40_checksum_builder.md: the checksum engine (R101), the catalog (R103), the builder and its
precondition (R104, R105), and that no single-bit flip of a valid frame goes undetected (R102). The last one compares
the buffer before and after the flip: what `Validate()` answers follows from where the two first differ. -/

namespace Sys2Proof.Machine

/-! ## Checksum and catalog -/

/-- Settles O16: the checksum byte is zero-extended. -/
theorem cksumResult : Obligations.CksumResult := by
  intro s bs
  rw [BitVec.ofNat_toNat]
  rfl

/-- The two low bytes of a word whose upper half is 0, as one number. -/
theorem zero_append_append_eq_ofNat (hi lo : Byte) :
    0#16 ++ hi ++ lo = BitVec.ofNat 32 (lo.toNat + 256 * hi.toNat) := by
  apply BitVec.eq_of_toNat_eq
  rw [toNat_append_eq_add, toNat_append_eq_add]
  simp only [BitVec.toNat_ofNat]
  omega

/-- Settles O17: `RVAL` is packed from the declared length and the wire code. -/
theorem cmdInfoResult : Obligations.CmdInfoResult := by
  intro s c
  rw [← zero_append_append_eq_ofNat]
  rfl

/-! ## Builder -/

theorem runBuild_of_reqLen_eq_zero {cfg : Config} {c : Command} (h : cfg.reqLen c = 0) (s : State) :
    runBuild cfg c s = ((s.setTxb (commandFrame cfg c)).setTxv true).setRes
      { Results.ok with rbytes := (commandFrame cfg c).toList, rlen := 5 } := by
  rw [runBuild, if_neg (not_not_intro h), complete_eq]

theorem runBuild_of_reqLen_ne_zero {cfg : Config} {c : Command} (h : cfg.reqLen c ≠ 0) (s : State) :
    runBuild cfg c s = s.setRes (Err.buildUnsupported c).results := by
  rw [runBuild, if_pos h, raise_eq]

/-- Settles O18: the device's configuration obeys R9 (d), so `BUILD` writes the command frame of R47. -/
theorem buildResult : Obligations.BuildResult := by
  intro s c
  have hexec : exec (.build c) s = .next (runBuild Config.device c s) := rfl
  rw [hexec, runBuild_of_reqLen_eq_zero (Config.device_admissible.reqLenZero c)]
  exact ⟨_, rfl, rfl, rfl, rfl, rfl, rfl, rfl, rfl, rfl⟩

/-- Settles O19: the check of R105 comes before the writes, and R9 (d) makes it pass. -/
theorem buildPrecondition : Obligations.BuildPrecondition := by
  refine ⟨fun cfg c s hreq => ?_, fun cfg c s hcfg => ?_⟩
  · rw [runBuild_of_reqLen_ne_zero hreq]
    rfl
  · rw [runBuild_of_reqLen_eq_zero (hcfg.reqLenZero c)]
    rfl

/-! ## One bit of the buffer inverted -/

theorem xor_twoPow_ne (x : Byte) {b : Nat} (hb : b < 8) : x ^^^ BitVec.twoPow 8 b ≠ x := by
  intro h
  have hbit : (x ^^^ BitVec.twoPow 8 b).getLsbD b = x.getLsbD b := by rw [h]
  simp [hb] at hbit

/-- The buffer with bit `b` of byte `n` inverted: what an `FB_WRITE` of the inverted byte leaves. -/
def Memory.invertBit (m : Memory) (n b : Nat) : Memory := m.write n (m.read n ^^^ BitVec.twoPow 8 b)

section
variable (m : Memory)

theorem Memory.read_invertBit_same (n b : Nat) : (m.invertBit n b).read n = m.read n ^^^ BitVec.twoPow 8 b := by
  rw [Memory.invertBit, Memory.read_write, if_pos rfl]

theorem Memory.read_invertBit_of_ne {n i : Nat} (h : i ≠ n) (b : Nat) : (m.invertBit n b).read i = m.read i := by
  rw [Memory.invertBit, Memory.read_write, if_neg h]

theorem Memory.read_invertBit_ne (n : Nat) {b : Nat} (hb : b < 8) : (m.invertBit n b).read n ≠ m.read n := by
  rw [Memory.read_invertBit_same]
  exact xor_twoPow_ne _ hb

theorem Memory.readBytes_invertBit_of_le {n k : Nat} (h : k ≤ n) (b : Nat) :
    (m.invertBit n b).readBytes 0 k = m.readBytes 0 k :=
  Memory.readBytes_congr fun i hi => m.read_invertBit_of_ne (by omega) b

/-- A bit inverted inside a run of bytes is the `flip` of R9 (f). -/
theorem Memory.readBytes_invertBit_eq_flipBit (n k : Nat) {b : Nat} (hb : b < 8) :
    (m.invertBit n b).readBytes 0 k = flipBit (m.readBytes 0 k) (8 * n + b) := by
  have hbyte : (8 * n + b) / 8 = n := by omega
  have hbit : (8 * n + b) % 8 = b := by omega
  rw [flipBit, hbyte, hbit]
  refine List.ext_getElem (by simp) fun i _ _ => ?_
  rw [List.getElem_modify, Memory.readBytes_getElem, Memory.readBytes_getElem, Nat.zero_add]
  split
  next h => rw [← h, Memory.read_invertBit_same]
  next h => exact m.read_invertBit_of_ne (Ne.symm h) b

end

/-- In an admissible configuration the checksum of a run of bytes changes with every bit of the run (R9 (f)). -/
theorem ck_readBytes_invertBit_ne {cfg : Config} (hcfg : cfg.Admissible) (m : Memory) {n k b : Nat} (hn : n < k)
    (hb : b < 8) : cfg.ck ((m.invertBit n b).readBytes 0 k) ≠ cfg.ck (m.readBytes 0 k) := by
  rw [m.readBytes_invertBit_eq_flipBit n k hb]
  exact hcfg.ckFlip _ _ (by rw [Memory.readBytes_length]; omega)

/-! ## Validation of a buffer that differs from a valid one -/

section
variable {cfg : Config} {c : Command} {m m' : Memory} (hm : validate cfg c m = .pass)
include hm

/-- The first header byte that differs from the valid one is reported by its rule, with the valid byte expected. -/
theorem validate_of_header_differs {n : Nat} (hn : n < 4) (hbelow : ∀ i < n, m'.read i = m.read i)
    (hne : m'.read n ≠ m.read n) : validate cfg c m' = .fail (n + 1) (m.read n) (m'.read n) := by
  obtain ⟨h0, h1, h2, h3, -⟩ := (validate_pass_iff cfg c m).mp hm
  obtain rfl | rfl | rfl | rfl : n = 0 ∨ n = 1 ∨ n = 2 ∨ n = 3 := by omega
  · rw [h0] at hne ⊢
    simp only [validate, if_pos hne]
  · simp [validate, hbelow, h0, h1 ▸ hne, h1]
  · simp [validate, hbelow, h0, h1, h2 ▸ hne, h2]
  · simp [validate, hbelow, h0, h1, h2, h3 ▸ hne, h3]

/-- With the header of a valid frame, a checksum byte that is not the computed one is reported by rule 5. -/
theorem validate_of_checksum_differs (hheader : ∀ i < 4, m'.read i = m.read i)
    (hck : m'.read (4 + payloadLen cfg c) ≠ frameChecksum cfg c m') :
    validate cfg c m' = .fail 5 (frameChecksum cfg c m') (m'.read (4 + payloadLen cfg c)) := by
  obtain ⟨h0, h1, h2, h3, -⟩ := (validate_pass_iff cfg c m).mp hm
  have hbody : m'.readBytes 0 (4 + payloadLen cfg c) = dataBody cfg c (m'.readBytes 4 (payloadLen cfg c)) := by
    rw [Memory.readBytes_add]
    simp [Memory.readBytes, dataBody, hheader, h0, h1, h2, h3]
  rw [frameChecksum, hbody] at hck ⊢
  exact validate_wrong_checksum hbody hck

/-- Rules 1 to 5 read no byte after the checksum byte. -/
theorem validate_of_checked_bytes_eq (h : ∀ i ≤ 4 + payloadLen cfg c, m'.read i = m.read i) :
    validate cfg c m' = .pass := by
  have hrun : frameChecksum cfg c m' = frameChecksum cfg c m := by
    rw [frameChecksum, Memory.readBytes_congr fun i hi => h _ (by omega), frameChecksum]
  rw [← hm]
  simp only [validate, hrun, h _ (Nat.le_refl _), h 0 (by omega), h 1 (by omega), h 2 (by omega), h 3 (by omega)]

/-- A flip in the payload changes the computed checksum alone, a flip in the checksum byte the received one alone. -/
theorem checksum_invertBit_differs (hcfg : cfg.Admissible) {n b : Nat} (hn : n ≤ 4 + payloadLen cfg c) (hb : b < 8) :
    (m.invertBit n b).read (4 + payloadLen cfg c) ≠ frameChecksum cfg c (m.invertBit n b) := by
  obtain ⟨-, -, -, -, hck⟩ := (validate_pass_iff cfg c m).mp hm
  rcases Nat.lt_or_eq_of_le hn with hlt | rfl
  · rw [m.read_invertBit_of_ne hlt.ne', hck]
    exact (ck_readBytes_invertBit_ne hcfg m hlt hb).symm
  · rw [frameChecksum, m.readBytes_invertBit_of_le (Nat.le_refl _), ← frameChecksum, ← hck]
    exact m.read_invertBit_ne _ hb

end

/-! ## The flip and the validation after it -/

theorem ValidFrame.validate_pass {cfg : Config} {s : State} {c : Command} (h : ValidFrame cfg s c) :
    validate cfg c s.fb = .pass :=
  (validate_pass_iff cfg c s.fb).mpr ⟨h.startCode, h.leaderId, h.responseCode, h.declaredLength, h.checksum⟩

theorem exec_fbWrite_of_lt {s : State} {c : Command} {index : Nat} (he : s.exp = some c)
    (hi : index < frameLen Config.device c) (b : Byte) :
    exec (.fbWrite index b) s = .next ((s.setFb (s.fb.write index b)).setRes Results.ok) := by
  simp only [exec, execFbWrite, runFbWrite, he, if_neg (Nat.not_le.mpr hi), complete_eq]

theorem exec_validate_of_fail {s : State} {c : Command} {rule : Nat} {x y : Byte} (he : s.exp = some c)
    (hv : validate Config.device c s.fb = .fail rule x y) :
    exec .validate s = .next (s.setRes (Err.invalidFrame rule x y).results) :=
  exec_validate_of_error (activeCommand_of_validate_fail he hv)

theorem exec_validate_of_pass {s : State} {c : Command} (he : s.exp = some c)
    (hv : validate Config.device c s.fb = .pass) : exec .validate s = .next (s.setRes Results.ok) := by
  simp only [exec, execValidate, runValidate, activeCommand, he, hv, complete_eq]

/-- Settles O29. Before the flipped byte the buffer is the valid one: in the header the flip is the first difference; past
it the header is right, and rule 5 finds the flip by R9 (f); no rule reads the reserved byte. -/
theorem singleBitFlips : Obligations.SingleBitFlips := by
  intro s t c n b hvalid hn hb hwrite
  have hpass := hvalid.validate_pass
  have hunchanged : ∀ i < n, (s.fb.invertBit n b).read i = s.fb.read i :=
    fun i hi => s.fb.read_invertBit_of_ne hi.ne b
  obtain rfl : (s.setFb (s.fb.invertBit n b)).setRes Results.ok = t :=
    Host.Outcome.next.inj ((exec_fbWrite_of_lt hvalid.expected hn _).symm.trans hwrite)
  by_cases hheader : n < 4
  · have hv := validate_of_header_differs hpass hheader hunchanged (s.fb.read_invertBit_ne n hb)
    exact ⟨_, exec_validate_of_fail hvalid.expected hv, fun _ => ⟨rfl, rfl, rfl⟩, by omega, by omega⟩
  by_cases hchecked : n ≤ 4 + payloadLen Config.device c
  · have hv := validate_of_checksum_differs hpass (fun i hi => hunchanged i (by omega))
      (checksum_invertBit_differs hpass Config.device_admissible hchecked hb)
    exact ⟨_, exec_validate_of_fail hvalid.expected hv, by omega, fun _ _ => ⟨rfl, rfl⟩,
      fun hreserved => absurd hchecked (by rw [hreserved, payloadLen]; omega)⟩
  · have hv := validate_of_checked_bytes_eq hpass fun i hi => hunchanged i (by omega)
    exact ⟨_, exec_validate_of_pass hvalid.expected hv, by omega, fun _ h => absurd h hchecked, fun _ => rfl⟩

end Sys2Proof.Machine
end

section
/-! PROOFS. The statements of 41_frame_buffer.md: allocating, writing and reading the frame buffer (R120 to R122),
`RECEIVE` (R123), `VALIDATE` and the operations that validate first (R124 to R126), and `PAYLOAD` (R127). Each
operation's outcome is said once, under the condition its rule names, and the statements are read off. -/

namespace Sys2Proof.Machine

/-! ## Allocating the buffer -/

theorem validate_of_startCode_ne {cfg : Config} {c : Command} {m : Memory} (h : m.read 0 ≠ 0x02#8) :
    validate cfg c m = .fail 1 0x02#8 (m.read 0) := by
  rw [validate, if_pos h]

theorem exec_frameNew (c : Command) (s : State) :
    exec (.frameNew c) s = .next (((s.setExp (some c)).setFb Memory.zeros).setRes Results.ok) := rfl

/-- Settles O21: the zero-filled buffer has no start code, so rule 1 fails first. -/
theorem frameNewResult : Obligations.FrameNewResult := by
  intro s c
  have hv : validate Config.device c Memory.zeros = .fail 1 0x02#8 0x00#8 := validate_of_startCode_ne (by decide)
  exact ⟨_, exec_frameNew c s, rfl, Memory.read_zeros, rfl, rfl, rfl, rfl, rfl, rfl, rfl,
    exec_validate_of_fail rfl hv⟩

/-! ## One byte of the buffer -/

section
variable {s : State} {c : Command} {index : Nat} (he : s.exp = some c)
include he

theorem exec_fbRead_of_lt (hi : index < frameLen Config.device c) :
    exec (.fbRead index) s = .next (s.setRes { Results.ok with rval := (s.fb.read index).setWidth 32 }) := by
  simp only [exec, execFbRead, runFbRead, he, if_neg (Nat.not_le.mpr hi), complete_eq]

theorem exec_fbWrite_of_le (hi : frameLen Config.device c ≤ index) (b : Byte) :
    exec (.fbWrite index b) s = .next (s.setRes (Err.indexRange index (frameLen Config.device c)).results) := by
  simp only [exec, execFbWrite, runFbWrite, he, if_pos hi, raise_eq]

theorem exec_fbRead_of_le (hi : frameLen Config.device c ≤ index) :
    exec (.fbRead index) s = .next (s.setRes (Err.indexRange index (frameLen Config.device c)).results) := by
  simp only [exec, execFbRead, runFbRead, he, if_pos hi, raise_eq]

end

/-- Settles O22 by the read-after-write law of the buffer. -/
theorem fbWriteResult : Obligations.FbWriteResult := by
  intro s c index b he hi
  refine ⟨_, exec_fbWrite_of_lt he hi b, ?_, fun a ha => ?_, rfl, rfl, rfl, rfl, rfl, rfl, rfl⟩
  · rw [State.setRes_fb, State.setFb_fb, Memory.read_write, if_pos rfl]
  · rw [State.setRes_fb, State.setFb_fb, Memory.read_write, if_neg ha]

/-- Settles O23: the byte is zero-extended. -/
theorem fbReadResult : Obligations.FbReadResult := by
  intro s c index he hi
  rw [exec_fbRead_of_lt he hi, BitVec.ofNat_toNat]
  rfl

/-- Settles O24: both operations raise the same error, and neither an index up to 511 nor `FLEN`, which is not above it,
wraps in its 16-bit register. -/
theorem indexRange : Obligations.IndexRange := by
  intro s c index b he hi hmax
  refine ⟨_, exec_fbWrite_of_le he hi b, exec_fbRead_of_le he hi, rfl, rfl, ?_, ?_⟩
  · exact Nat.mod_eq_of_lt (by omega)
  · exact Nat.mod_eq_of_lt (by rw [frameLen, payloadLen]; omega)

/-! ## Receiving a frame -/

/-- What a `RECEIVE` into a buffer of `n` bytes does not store: `FAIL`, or any other number of bytes
(41_frame_buffer.md R123). -/
def UnfitStream (n : Nat) (stream : Stream) : Prop := ∀ bs, stream = .bytes bs → bs.length ≠ n

section
variable {s : State} {c : Command} (he : s.exp = some c)
include he

theorem exec_receive_of_length_eq {bs : List Byte} (hlen : bs.length = frameLen Config.device c) :
    exec (.receive (.bytes bs)) s = .next (((endExchange s).setFb (Memory.ofBytes 0 bs)).setRes Results.ok) := by
  simp only [exec, execReceive, runReceive, he, if_pos hlen, complete_eq]

theorem exec_receive_of_unfit {stream : Stream} (h : UnfitStream (frameLen Config.device c) stream) :
    exec (.receive stream) s =
      .next ((drawFrame (frameLen Config.device c) (endExchange s)).setRes Err.receiveFailed.results) := by
  cases stream with
  | fail => simp only [exec, execReceive, runReceive, he, failReceive, raise_eq]
  | bytes bs => simp only [exec, execReceive, runReceive, he, if_neg (h bs rfl), failReceive, raise_eq]

end

/-- Settles O25: a filled buffer reads back as the bytes that filled it. -/
theorem receiveResult : Obligations.ReceiveResult := by
  intro s c bs he hlen
  have hread : (Memory.ofBytes 0 bs).readBytes 0 bs.length = bs := by simpa using Memory.readBytes_ofBytes bs []
  exact ⟨_, exec_receive_of_length_eq he hlen, hread, rfl, rfl, rfl, rfl, rfl, rfl, rfl⟩

/-- Settles O26: the buffer is drawn byte by byte, from the draw counter on. -/
theorem receiveFailed : Obligations.ReceiveFailed := by
  intro s c stream he hunfit
  obtain ⟨hexp, htxb, htxv, -, hinputs, htransport, hdraws, hread, -, -⟩ :=
    drawFrame_spec (frameLen Config.device c) (endExchange s)
  exact ⟨_, exec_receive_of_unfit he hunfit, rfl, hexp.trans he, hread, hdraws, htxb, htxv, hinputs, htransport⟩

/-! ## Validating -/

/-- The result file of `VALIDATE` for a verdict (41_frame_buffer.md R125). -/
def Verdict.results : Verdict → Results
  | .pass => Results.ok
  | .fail rule expected received => (Err.invalidFrame rule expected received).results

theorem exec_validate_of_exp {s : State} {c : Command} (he : s.exp = some c) :
    exec .validate s = .next (s.setRes (validate Config.device c s.fb).results) := by
  cases hv : validate Config.device c s.fb with
  | pass => exact exec_validate_of_pass he hv
  | fail rule x y => exact exec_validate_of_fail he hv

/-- Settles O28: the results of the chain of rules are the chain of their results. -/
theorem validateResult : Obligations.ValidateResult := by
  intro s c he
  rw [exec_validate_of_exp he, validate]
  simp only [apply_ite Verdict.results]
  rfl

/-- The accessors are `GET_CELL_VOLTAGES` and the scalar ones, each a `readScalar` of its quantity
(42_field_extractor.md R160 to R172). -/
theorem accessor_cases {i : Instr} {mask : Half} (h : (i, mask) ∈ accessorMasks) :
    i = .getCellVoltages ∨ ∃ q, ∀ s, exec i s = .next (readScalar Config.device q s) := by
  simp only [accessorMasks, List.mem_cons, Prod.mk.injEq, List.not_mem_nil, or_false] at h
  rcases h with ⟨rfl, -⟩ | hscalar
  · exact .inl rfl
  · right
    rcases hscalar with ⟨rfl, -⟩ | ⟨rfl, -⟩ | ⟨rfl, -⟩ | ⟨rfl, -⟩ | ⟨rfl, -⟩ | ⟨rfl, -⟩ | ⟨rfl, -⟩ | ⟨rfl, -⟩ |
      ⟨rfl, -⟩ | ⟨rfl, -⟩ | ⟨rfl, -⟩ | ⟨rfl, -⟩ <;> exact ⟨_, fun _ => rfl⟩

/-- An operation that validates first raises what validation raises, and does nothing else (41_frame_buffer.md R126). -/
theorem exec_of_validatesFirst_of_error {s : State} {i : Instr} {e : Err} (hi : validatesFirst i)
    (h : activeCommand Config.device s = .error e) : exec i s = .next (s.setRes e.results) := by
  rcases hi with ⟨mask, hmem⟩ | ⟨f, rfl⟩ | rfl
  · rcases accessor_cases hmem with rfl | ⟨q, hq⟩
    · simp only [exec, execGetCellVoltages, runGetCellVoltages, h, raise_eq]
    · rw [hq, readScalar_of_error q h]
  · simp only [exec, execFaultByName, runFaultByName, h, raise_eq]
  · simp only [exec, execFaultIter, runFaultIter, h, raise_eq]

theorem activeCommand_error_of_not_valid {cfg : Config} {s : State} (h : ∀ c, ¬ ValidFrame cfg s c) :
    ∃ e, activeCommand cfg s = .error e := by
  cases hc : activeCommand cfg s with
  | error e => exact ⟨e, rfl⟩
  | ok c => exact absurd ((activeCommand_ok_iff cfg s c).mp hc) (h c)

/-- Settles O35: without a valid frame there is no active command, and every operation that asks for it raises the same
error as `VALIDATE`: `NO_FRAME` without a buffer, `INVALID_FRAME` with one. -/
theorem invalidFrameFirst : Obligations.InvalidFrameFirst := by
  intro s i hi hinvalid
  obtain ⟨e, herr⟩ := activeCommand_error_of_not_valid hinvalid
  have hexec := exec_of_validatesFirst_of_error hi herr
  refine ⟨hexec.trans (exec_validate_of_error herr).symm, _, hexec, rfl, ?_⟩
  rcases activeCommand_error herr with ⟨hnone, rfl⟩ | ⟨c, rule, x, y, hsome, -, -, -, rfl⟩
  · exact ⟨fun _ => rfl, fun hne => absurd hnone hne⟩
  · exact ⟨fun hnone => by simp [hsome] at hnone, fun _ => rfl⟩

/-! ## The payload -/

theorem exec_payload_of_exp {s : State} {c : Command} (he : s.exp = some c) :
    exec .payload s = .next (s.setRes { Results.ok with
      rbytes := s.fb.readBytes 4 (payloadLen Config.device c)
      rlen := BitVec.ofNat 16 (payloadLen Config.device c) }) := by
  simp only [exec, execPayload, runPayload, he, complete_eq]

section
variable (m : Memory) (a : Nat) {n i : Nat}

theorem Memory.readBytes_getD_of_lt (h : i < n) : (m.readBytes a n).getD i 0 = m.read (a + i) := by
  have hi : i < (m.readBytes a n).length := by rwa [Memory.readBytes_length]
  rw [List.getD_eq_getElem _ _ hi, Memory.readBytes_getElem]

theorem Memory.readBytes_getD_of_le (h : n ≤ i) : (m.readBytes a n).getD i 0 = 0 :=
  List.getD_eq_default _ _ (by rwa [Memory.readBytes_length])

end

/-- Settles O31: `RBYTES` holds the run of the buffer from index 4, and `LEN` fits `RLEN`. -/
theorem payloadResult : Obligations.PayloadResult := by
  intro s c he
  have hlen : payloadLen Config.device c ≤ 255 := payloadLen_le _ c
  exact ⟨_, exec_payload_of_exp he, rfl, rfl, Nat.mod_eq_of_lt (by omega), fun _ => s.fb.readBytes_getD_of_lt 4,
    fun _ => s.fb.readBytes_getD_of_le 4⟩

end Sys2Proof.Machine
end

section
/-! PROOFS. The statements of 42_field_extractor.md: the valid source sets (R150, R153), the default rounding (R157), and
what each accessor reports on a valid frame of each of its sources (R160 to R172). A scalar accessor reports what the
row of the layout table evaluates to, so each kind of row is read once, and the statements are read off the table. -/

namespace Sys2Proof

/-! ## Quantities and commands -/

/-- The masks of the valid source sets, as the table of 42_field_extractor.md R153 prints them. -/
def Quantity.sourceMask : Quantity → Half
  | .cellVoltages => 0x0201
  | .current => 0x0602
  | .temperature => 0x0604
  | .remainingCapacity => 0x0608
  | .designCapacity => 0x0610
  | .fullChargeCapacity => 0x0620
  | .absoluteSoc => 0x0600
  | .relativeSoc => 0x0600
  | .stateOfHealth => 0x0640
  | .moduleVoltage => 0x0600
  | .failStatus1 => 0x0680
  | .failStatus2 => 0x0700
  | .failStatus3 => 0x0400

/-- The accessor of a quantity (30_encoding.md R66). -/
def Quantity.accessor : Quantity → Instr
  | .cellVoltages => .getCellVoltages
  | .current => .getCurrent
  | .temperature => .getTemperature
  | .remainingCapacity => .getRemainingCapacity
  | .designCapacity => .getDesignCapacity
  | .fullChargeCapacity => .getFullChargeCapacity
  | .absoluteSoc => .getAbsoluteSoc
  | .relativeSoc => .getRelativeSoc
  | .stateOfHealth => .getStateOfHealth
  | .moduleVoltage => .getModuleVoltage
  | .failStatus1 => .getFailStatus1
  | .failStatus2 => .getFailStatus2
  | .failStatus3 => .getFailStatus3

theorem Command.index_injective : Function.Injective Command.index := by
  intro c d
  cases c <;> cases d <;> decide

theorem Command.mem_all (c : Command) : c ∈ Command.all := by cases c <;> decide

end Sys2Proof

namespace Sys2Proof.Machine

/-! ## The valid source sets -/

/-- Whether the layout table has a row does not depend on the offsets and scales in it. -/
theorem layout_isSome_congr (cfg cfg' : Config) (q : Quantity) (c : Command) :
    (layout cfg q c).isSome = (layout cfg' q c).isSome := by
  cases q <;> cases c <;> rfl

/-- So the mask of one configuration, evaluated, is that of all. -/
theorem commandMask_validSources (cfg : Config) (q : Quantity) :
    commandMask (validSources cfg q) = q.sourceMask := by
  have htc1 : validSources cfg q = validSources Config.tc1 q :=
    congrArg (Command.all.filter ·) (funext (layout_isSome_congr cfg Config.tc1 q))
  rw [htc1]
  cases q <;> decide

/-- Settles O33, quantity by quantity. -/
theorem validSourceMasks : Obligations.ValidSourceMasks := by
  intro cfg
  simp only [commandMask_validSources]
  rfl

/-- Bit `i` of a mask is set for the command with index `i` exactly where the set holds that command. -/
theorem commandMask_getLsbD (cs : List Command) (c : Command) :
    (commandMask cs).getLsbD c.index = true ↔ c ∈ cs := by
  have hlt : c.index < 16 := by cases c <;> decide
  induction cs with
  | nil => simp [commandMask]
  | cons d cs ih =>
    have hhead : (BitVec.twoPow 16 d.index).getLsbD c.index = true ↔ c = d := by
      simp [hlt, Command.index_injective.eq_iff, eq_comm]
    have hcons : commandMask (d :: cs) = BitVec.twoPow 16 d.index ||| commandMask cs := rfl
    simp only [hcons, BitVec.getLsbD_or, Bool.or_eq_true, hhead, ih, List.mem_cons]

theorem mem_validSources (cfg : Config) (q : Quantity) (c : Command) :
    c ∈ validSources cfg q ↔ (layout cfg q c).isSome = true := by
  rw [validSources, List.mem_filter]
  exact and_iff_right c.mem_all

/-- A command whose bit of the mask is clear has no row in the layout table. -/
theorem layout_eq_none_of_sourceMask {q : Quantity} {c : Command} (h : q.sourceMask.getLsbD c.index = false)
    (cfg : Config) : layout cfg q c = none := by
  have hout : c ∉ validSources cfg q := by
    rw [← commandMask_getLsbD, commandMask_validSources, h]
    exact Bool.false_ne_true
  simpa [mem_validSources] using hout

/-! ## Frames without the quantity -/

/-- `accessorMasks` pairs the accessor of each quantity with the mask of its sources. -/
theorem exists_quantity_of_mem_accessorMasks {i : Instr} {mask : Half} (h : (i, mask) ∈ accessorMasks) :
    ∃ q : Quantity, q.accessor = i ∧ q.sourceMask = mask := by
  have hrows : accessorMasks =
      [Quantity.cellVoltages, .current, .temperature, .remainingCapacity, .designCapacity, .fullChargeCapacity,
        .absoluteSoc, .relativeSoc, .stateOfHealth, .moduleVoltage, .failStatus1, .failStatus2, .failStatus3].map
          (fun q => (q.accessor, q.sourceMask)) := rfl
  rw [hrows] at h
  obtain ⟨q, -, hq⟩ := List.mem_map.mp h
  exact ⟨q, Prod.mk.inj hq⟩

theorem exec_accessor {q : Quantity} (hq : q ≠ .cellVoltages) (s : State) :
    exec q.accessor s = .next (readScalar Config.device q s) := by
  cases q with
  | cellVoltages => exact absurd rfl hq
  | _ => rfl

section
variable {cfg : Config} {s : State} {c : Command} (hv : ValidFrame cfg s c)
include hv

theorem readScalar_of_no_source {q : Quantity} (hl : layout cfg q c = none) :
    readScalar cfg q s = s.setRes (Err.noAppropriateData c (commandMask (validSources cfg q))).results := by
  simp only [readScalar_of_valid hv, extract_of_no_source hl]

theorem runGetCellVoltages_of_no_source (hl : layout cfg .cellVoltages c = none) :
    runGetCellVoltages cfg s =
      s.setRes (Err.noAppropriateData c (commandMask (validSources cfg .cellVoltages))).results := by
  simp only [runGetCellVoltages, activeCommand_of_valid hv, cellWindow_of_no_source hl, raise_eq]

end

theorem exec_accessor_of_no_source {s : State} {c : Command} {q : Quantity} (hv : ValidFrame Config.device s c)
    (hl : layout Config.device q c = none) :
    exec q.accessor s = .next (s.setRes (Err.noAppropriateData c q.sourceMask).results) := by
  rw [← commandMask_validSources Config.device q]
  by_cases hq : q = .cellVoltages
  · subst hq
    exact congrArg _ (runGetCellVoltages_of_no_source hv hl)
  · rw [exec_accessor hq, readScalar_of_no_source hv hl]

/-- Settles O34: a clear bit of the printed mask means no row of the layout table, and without one the accessor raises
`NO_APPROPRIATE_DATA` with that mask. -/
theorem noAppropriateData : Obligations.NoAppropriateData := by
  intro s c i mask hv hmem hbit
  obtain ⟨q, rfl, rfl⟩ := exists_quantity_of_mem_accessorMasks hmem
  exact exec_accessor_of_no_source hv (layout_eq_none_of_sourceMask hbit _)

/-! ## Reporting a scalar -/

/-- The range in which the value of a result is stated under `ANY`: the narrow range, or all of s32
(42_field_extractor.md R154). -/
def resultRange (q : Quantity) : Int × Int := (narrowRange q).getD (s32Min, s32Max)

theorem inNarrowRange_of_mem_resultRange {q : Quantity} {v : Int} (hlo : (resultRange q).1 ≤ v)
    (hhi : v ≤ (resultRange q).2) : inNarrowRange q v = true := by
  unfold resultRange at hlo hhi
  unfold inNarrowRange
  split
  next lo hi h =>
    rw [h] at hlo hhi
    exact decide_eq_true ⟨hlo, hhi⟩
  · rfl

theorem valueStated_of_range {cfg : Config} {q : Quantity} {v : Int} (hmin : -2147483648 ≤ v) (hmax : v ≤ 2147483647)
    (h : cfg.resultOverflow = .exact ∨ ((resultRange q).1 ≤ v ∧ v ≤ (resultRange q).2)) :
    valueStated cfg q v = true := by
  have hnarrow : cfg.resultOverflow = .exact ∨ inNarrowRange q v = true :=
    h.imp_right fun ⟨hlo, hhi⟩ => inNarrowRange_of_mem_resultRange hlo hhi
  simpa [valueStated, hmin, hmax] using hnarrow

/-- Storing a scalar reports it. -/
theorem storeScalar_reportsScalar (cfg : Config) (q : Quantity) (v : Int) (s : State) :
    ReportsScalar cfg (resultRange q).1 (resultRange q).2 v s (storeScalar cfg q v s) := by
  rcases storeScalar_cases cfg q v s with ⟨-, hs⟩ | ⟨hunstated, hs⟩ <;> rw [hs]
  · exact ⟨⟨rfl, rfl, rfl, rfl, rfl, rfl⟩, rfl, fun _ _ _ => ⟨rfl, rfl⟩⟩
  · refine ⟨⟨rfl, rfl, rfl, rfl, rfl, rfl⟩, rfl, fun hmin hmax h => ?_⟩
    rw [valueStated_of_range hmin hmax h] at hunstated
    cases hunstated

section
variable {cfg : Config} {s t : State} {lo hi v : Int}

/-- A value that fits 32 bits and lies in the range is reported under either overflow parameter. -/
theorem ReportsScalar.eq_setRes (h : ReportsScalar cfg lo hi v s t) (hmin : -2147483648 ≤ v) (hmax : v ≤ 2147483647)
    (hlo : lo ≤ v) (hhi : v ≤ hi) : t = s.setRes { Results.cleared with rval := BitVec.ofInt 32 v } := by
  obtain ⟨⟨hexp, hfb, htxb, htxv, hinputs, htransport⟩, hres, hvalue⟩ := h
  obtain ⟨hval, hdraws⟩ := hvalue hmin hmax (.inr ⟨hlo, hhi⟩)
  exact State.ext_fields hexp hfb htxb htxv (hres.trans (by rw [hval]; rfl)) hinputs htransport hdraws

theorem ReportsWindow.reportsScalar_of_le {c : Command} {q off w : Nat}
    (h : ReportsWindow cfg c q off w lo hi v s t) (hfit : off + w ≤ (cfg.len c).toNat) :
    ReportsScalar cfg lo hi v s t := by
  rwa [ReportsWindow, if_pos hfit] at h

end

/-! ## Reading a row of the layout table -/

/-- The unsigned word at a payload offset, in frame indices. -/
theorem Memory.u16_payload (m : Memory) (off : Nat) :
    m.u16 (4 + off) = beU16 (m.read (4 + off)) (m.read (5 + off)) := by
  rw [Memory.u16, show 4 + off + 1 = 5 + off by omega]

theorem Memory.s16_payload (m : Memory) (off : Nat) :
    m.s16 (4 + off) = beS16 (m.read (4 + off)) (m.read (5 + off)) := by
  rw [Memory.s16, show 4 + off + 1 = 5 + off by omega]

section
variable {cfg : Config} {s : State} {c : Command} (hv : ValidFrame cfg s c) {q : Quantity}
include hv

section
variable {src : Source} (hl : layout cfg q c = some src)
include hl

theorem readScalar_of_evalSource_error {e : Err} (h : evalSource cfg c s.fb q src = .error e) :
    readScalar cfg q s = s.setRes e.results := by
  simp only [readScalar_of_valid hv, extract_of_layout hl, h]

theorem readScalar_of_evalSource_ok {v : Int} (h : evalSource cfg c s.fb q src = .ok v) :
    ReportsScalar cfg (resultRange q).1 (resultRange q).2 v s (readScalar cfg q s) := by
  simp only [readScalar_of_valid hv, extract_of_layout hl, h]
  exact storeScalar_reportsScalar cfg q v s

/-- A row that reads one window reports its value, or the shortage of the quantity `q'` that the window is for. -/
theorem readScalar_reportsWindow {q' : Quantity} {off w : Nat} {v : Int}
    (h : evalSource cfg c s.fb q src = if off + w > (cfg.len c).toNat
      then .error (.dataBytesShortage q' (off + w) (cfg.len c).toNat) else .ok v) :
    ReportsWindow cfg c q'.id off w (resultRange q).1 (resultRange q).2 v s (readScalar cfg q s) := by
  unfold ReportsWindow
  split
  next hfit =>
    rw [if_neg (Nat.not_lt.mpr hfit)] at h
    exact readScalar_of_evalSource_ok hv hl h
  next hshort =>
    rw [if_pos (Nat.lt_of_not_le hshort)] at h
    exact readScalar_of_evalSource_error hv hl h

/-- A row computed from two windows checks them in order, the first for `q1` and the second for `q2`, then the divisor
`y`, and then reports its value (42_field_extractor.md R159). -/
theorem readScalar_reports_computed {q1 q2 : Quantity} {off1 off2 y : Nat} {v : Int}
    (h : evalSource cfg c s.fb q src =
      if off1 + 2 > (cfg.len c).toNat then .error (.dataBytesShortage q1 (off1 + 2) (cfg.len c).toNat)
      else if off2 + 2 > (cfg.len c).toNat then .error (.dataBytesShortage q2 (off2 + 2) (cfg.len c).toNat)
      else if y = 0 then .error (.divideByZero q) else .ok v) :
    if (cfg.len c).toNat < off1 + 2 then
      ReportsShortage q1.id (off1 + 2) (cfg.len c).toNat s (readScalar cfg q s)
    else if (cfg.len c).toNat < off2 + 2 then
      ReportsShortage q2.id (off2 + 2) (cfg.len c).toNat s (readScalar cfg q s)
    else if y = 0 then readScalar cfg q s = s.setRes (Err.divideByZero q).results
    else ReportsScalar cfg (resultRange q).1 (resultRange q).2 v s (readScalar cfg q s) := by
  by_cases h1 : (cfg.len c).toNat < off1 + 2
  · rw [if_pos h1] at h ⊢
    exact readScalar_of_evalSource_error hv hl h
  rw [if_neg h1] at h ⊢
  by_cases h2 : (cfg.len c).toNat < off2 + 2
  · rw [if_pos h2] at h ⊢
    exact readScalar_of_evalSource_error hv hl h
  rw [if_neg h2] at h ⊢
  by_cases hy : y = 0
  · rw [if_pos hy] at h ⊢
    exact readScalar_of_evalSource_error hv hl h
  · rw [if_neg hy] at h ⊢
    exact readScalar_of_evalSource_ok hv hl h

end

variable {off : Byte} {k v : Int}

theorem readScalar_signed (hl : layout cfg q c = some (.signed off k))
    (hval : k * beS16 (s.fb.read (4 + off.toNat)) (s.fb.read (5 + off.toNat)) = v) :
    ReportsWindow cfg c q.id off.toNat 2 (resultRange q).1 (resultRange q).2 v s (readScalar cfg q s) := by
  subst hval
  rw [← Memory.s16_payload]
  exact readScalar_reportsWindow hv hl (evalSource_signed ..)

theorem readScalar_unsigned (hl : layout cfg q c = some (.unsigned off k))
    (hval : k * beU16 (s.fb.read (4 + off.toNat)) (s.fb.read (5 + off.toNat)) = v) :
    ReportsWindow cfg c q.id off.toNat 2 (resultRange q).1 (resultRange q).2 v s (readScalar cfg q s) := by
  subst hval
  rw [← Memory.u16_payload]
  exact readScalar_reportsWindow hv hl (evalSource_unsigned ..)

theorem readScalar_temperature (hl : layout cfg q c = some (.temperature off k))
    (hval : k * temperatureWord cfg s.fb (4 + off.toNat) = v) :
    ReportsWindow cfg c q.id off.toNat 2 (resultRange q).1 (resultRange q).2 v s (readScalar cfg q s) := by
  subst hval
  exact readScalar_reportsWindow hv hl (evalSource_temperature ..)

theorem readScalar_byte (hl : layout cfg q c = some (.byte off)) :
    ReportsWindow cfg c q.id off.toNat 1 (resultRange q).1 (resultRange q).2 (s.fb.read (4 + off.toNat)).toNat s
      (readScalar cfg q s) :=
  readScalar_reportsWindow hv hl (evalSource_byte ..)

end

/-! ## Cell voltages -/

/-- The cells are reported: the eight big-endian words from payload offset `off` on, in wire order, every other result
register cleared, and nothing else changed (42_field_extractor.md R160). -/
def ReportsCells (off : Nat) (s t : State) : Prop :=
  t = s.setRes t.res ∧ t.res = { Results.cleared with rvec := t.res.rvec } ∧
    ∀ i : Fin 8, t.res.rvec[i] = s.fb.read (4 + off + 2 * i.val) ++ s.fb.read (5 + off + 2 * i.val)

/-- A cell at a payload offset, in frame indices. -/
theorem cellAt_payload (m : Memory) (off i : Nat) :
    cellAt m (4 + off) i = beU16 (m.read (4 + off + 2 * i)) (m.read (5 + off + 2 * i)) := by
  rw [cellAt, Memory.u16, show 4 + off + 2 * i + 1 = 5 + off + 2 * i by omega]

theorem ofNat_cellAt_payload (m : Memory) (off i : Nat) :
    BitVec.ofNat 16 (cellAt m (4 + off) i) = m.read (4 + off + 2 * i) ++ m.read (5 + off + 2 * i) := by
  rw [cellAt_payload, beU16_eq_toNat_append]
  exact BitVec.ofNat_toNat ..

theorem runGetCellVoltages_reports {cfg : Config} {s : State} {c : Command} {off : Byte} (hv : ValidFrame cfg s c)
    (hl : layout cfg .cellVoltages c = some (.cells off)) :
    if off.toNat + 16 ≤ (cfg.len c).toNat then ReportsCells off.toNat s (runGetCellVoltages cfg s)
    else ReportsShortage 0 (off.toNat + 16) (cfg.len c).toNat s (runGetCellVoltages cfg s) := by
  have hrun := cellWindow_of_layout hl
  rw [Source.firstOffset, window_eq] at hrun
  split
  next hfit =>
    rw [if_neg (Nat.not_lt.mpr hfit)] at hrun
    simp only [runGetCellVoltages, activeCommand_of_valid hv, hrun, complete_eq]
    refine ⟨rfl, rfl, fun i => ?_⟩
    simp only [State.setRes_res, Fin.getElem_fin, Vector.getElem_ofFn]
    exact ofNat_cellAt_payload s.fb off.toNat i
  next hshort =>
    rw [if_pos (Nat.lt_of_not_le hshort)] at hrun
    simp only [runGetCellVoltages, activeCommand_of_valid hv, hrun, raise_eq]
    rfl

/-- Settles O37: the dedicated command's window is the whole payload, whose length R9 (c) fixes. -/
theorem cellVoltagesResult : Obligations.CellVoltagesResult := by
  intro s
  refine ⟨fun hv => ⟨_, rfl, ?_⟩, fun hv => ⟨_, rfl, runGetCellVoltages_reports hv rfl⟩⟩
  have hcells := runGetCellVoltages_reports hv (off := 0#8) rfl
  have hfit : (0#8).toNat + 16 ≤ (Config.device.len .cellVoltage).toNat := by
    rw [Config.device_admissible.lenCellVoltage]
    decide
  rwa [if_pos hfit] at hcells

/-! ## Current -/

theorem beS16_bounds (b0 b1 : Byte) : -32768 ≤ beS16 b0 b1 ∧ beS16 b0 b1 ≤ 32767 := by
  rw [beS16_eq_toInt_append]
  have hlo := BitVec.le_toInt (b0 ++ b1)
  have hhi := BitVec.toInt_lt (x := b0 ++ b1)
  omega

theorem ofInt_beS16 (b0 b1 : Byte) : BitVec.ofInt 32 (beS16 b0 b1) = (b0 ++ b1).signExtend 32 := by
  rw [beS16_eq_toInt_append]
  rfl

/-- Settles O38: on the dedicated command the word lies in the narrow range, so its value is stated, and its window is
the whole payload, whose length R9 (c) fixes. -/
theorem currentResult : Obligations.CurrentResult := by
  intro s
  refine ⟨fun hv => ⟨_, rfl, ?_⟩, fun hv => ⟨_, rfl, readScalar_signed hv rfl rfl⟩,
    fun hv => ⟨_, rfl, readScalar_signed hv rfl rfl⟩⟩
  have hwindow := readScalar_signed hv (q := .current) (off := 0#8) rfl (one_mul _)
  have hscalar := hwindow.reportsScalar_of_le (by rw [Config.device_admissible.lenCurrent]; decide)
  obtain ⟨hlo, hhi⟩ := beS16_bounds (s.fb.read 4) (s.fb.read 5)
  rw [← ofInt_beS16]
  exact hscalar.eq_setRes (le_trans (by decide) hlo) (le_trans hhi (by decide)) hlo hhi

/-! ## Temperature -/

theorem dedicatedTempScale_mul (cfg : Config) (x : Int) :
    dedicatedTempScale cfg * x = if cfg.tempDedScale = .unit then 10 * x else x := by
  cases h : cfg.tempDedScale <;> simp [dedicatedTempScale, h]

/-- Settles O39: `T16` of each row's window; the dedicated window is the whole payload by R9 (c). -/
theorem temperatureResult : Obligations.TemperatureResult := by
  intro s word
  refine ⟨fun hv => ⟨_, rfl, ?_⟩, fun hv => ⟨_, rfl, readScalar_temperature hv rfl (one_mul _)⟩,
    fun hv => ⟨_, rfl, readScalar_temperature hv rfl (one_mul _)⟩⟩
  have hwindow := readScalar_temperature hv (q := .temperature) (off := 0#8) rfl (dedicatedTempScale_mul _ _)
  exact hwindow.reportsScalar_of_le (by rw [Config.device_admissible.lenTemperature]; decide)

/-! ## Capacities -/

/-- Settles O40: each row names a quantity with an unsigned word in all three of its layouts. -/
theorem capacityResults : Obligations.CapacityResults := by
  intro s i q ded mi su hrow
  obtain ⟨Q, rfl, rfl, hQ, hrange, hded, hmi, hsu⟩ : ∃ Q : Quantity, Q.accessor = i ∧ Q.id = q ∧
      Q ≠ .cellVoltages ∧ resultRange Q = (0, 65535) ∧
      layout Config.device Q ded = some (.unsigned 0 1) ∧
      layout Config.device Q .moduleInformation = some (.unsigned mi 1) ∧
      layout Config.device Q .summary = some (.unsigned su 10) := by
    simp only [List.mem_cons, Prod.mk.injEq, List.not_mem_nil, or_false] at hrow
    rcases hrow with ⟨rfl, rfl, rfl, rfl, rfl⟩ | ⟨rfl, rfl, rfl, rfl, rfl⟩ | ⟨rfl, rfl, rfl, rfl, rfl⟩
    · exact ⟨.remainingCapacity, rfl, rfl, by decide, rfl, rfl, rfl, rfl⟩
    · exact ⟨.designCapacity, rfl, rfl, by decide, rfl, rfl, rfl, rfl⟩
    · exact ⟨.fullChargeCapacity, rfl, rfl, by decide, rfl, rfl, rfl, rfl⟩
  rw [exec_accessor hQ]
  have hread {c : Command} {off : Byte} {k v : Int} (hv : ValidFrame Config.device s c)
      (hl : layout Config.device Q c = some (.unsigned off k))
      (hval : k * beU16 (s.fb.read (4 + off.toNat)) (s.fb.read (5 + off.toNat)) = v) :
      ReportsWindow Config.device c Q.id off.toNat 2 0 65535 v s (readScalar Config.device Q s) := by
    simpa [hrange] using readScalar_unsigned hv hl hval
  exact ⟨fun hv => ⟨_, rfl, hread hv hded (one_mul _)⟩, fun hv => ⟨_, rfl, hread hv hmi (one_mul _)⟩,
    fun hv => ⟨_, rfl, hread hv hsu rfl⟩⟩

/-! ## States of charge -/

/-- Settles O41: on `MI` the row is computed, on `SU` it is a byte. -/
theorem absoluteSocResult : Obligations.AbsoluteSocResult := by
  intro s len ro dof rem des
  refine ⟨fun hv => ⟨_, rfl, ?_⟩, fun hv => ⟨_, rfl, readScalar_byte hv rfl⟩⟩
  have heval := evalSource_absoluteSoc Config.device .moduleInformation s.fb .absoluteSoc Config.device.mi.remCap
    Config.device.mi.desCap
  simp only [Memory.u16_payload] at heval
  exact readScalar_reports_computed hv rfl heval

/-- Settles O42: on `MI` the row is computed, on `SU` it is a byte. -/
theorem relativeSocResult : Obligations.RelativeSocResult := by
  intro s len ro fo rem full
  refine ⟨fun hv => ⟨_, rfl, ?_⟩, fun hv => ⟨_, rfl, readScalar_byte hv rfl⟩⟩
  have heval := evalSource_relativeSoc Config.device .moduleInformation s.fb .relativeSoc Config.device.mi.remCap
    Config.device.mi.fcCap
  simp only [Memory.u16_payload] at heval
  exact readScalar_reports_computed hv rfl heval

/-- Settles O43: half up is the quotient of `200 * rem + des` by `2 * des`, and the two bounds of a quotient are those of
the statement, each moved by `des`. -/
theorem absoluteSocDefault : Obligations.AbsoluteSocDefault := by
  intro rem des hdes v
  have hpos : (0 : Int) < 2 * des := by omega
  have hdef : Config.absSocDefault rem des = (200 * rem + des) / (2 * des) := by
    simp [Config.absSocDefault]
  have hmul : v * (2 * des) = 2 * v * des := by ring
  rw [hdef, Int.ediv_eq_iff_of_pos hpos, hmul]
  omega

/-! ## Raw bytes -/

theorem ofInt_toNat_byte (b : Byte) : BitVec.ofInt 32 (b.toNat : Int) = b.setWidth 32 := by
  rw [BitVec.ofInt_natCast, BitVec.ofNat_toNat]

theorem toNat_byte_bounds (b : Byte) : s32Min ≤ b.toNat ∧ (b.toNat : Int) ≤ s32Max := by
  have hlt := b.isLt
  rw [s32Min, s32Max]
  omega

/-- Settles O44: each row names a quantity with one byte in all three of its layouts; the dedicated window fits, since
every length is at least 1 (R9 (b)). -/
theorem byteResults : Obligations.ByteResults := by
  intro s i q ded mi su hrow
  obtain ⟨Q, rfl, rfl, hQ, hrange, hded, hmi, hsu⟩ : ∃ Q : Quantity, Q.accessor = i ∧ Q.id = q ∧
      Q ≠ .cellVoltages ∧ resultRange Q = (s32Min, s32Max) ∧
      layout Config.device Q ded = some (.byte 0) ∧
      layout Config.device Q .moduleInformation = some (.byte mi) ∧
      layout Config.device Q .summary = some (.byte su) := by
    simp only [List.mem_cons, Prod.mk.injEq, List.not_mem_nil, or_false] at hrow
    rcases hrow with ⟨rfl, rfl, rfl, rfl, rfl⟩ | ⟨rfl, rfl, rfl, rfl, rfl⟩ | ⟨rfl, rfl, rfl, rfl, rfl⟩
    · exact ⟨.stateOfHealth, rfl, rfl, by decide, rfl, rfl, rfl, rfl⟩
    · exact ⟨.failStatus1, rfl, rfl, by decide, rfl, rfl, rfl, rfl⟩
    · exact ⟨.failStatus2, rfl, rfl, by decide, rfl, rfl, rfl, rfl⟩
  have hread {c : Command} {off : Byte} (hv : ValidFrame Config.device s c)
      (hl : layout Config.device Q c = some (.byte off)) :
      ReportsWindow Config.device c Q.id off.toNat 1 s32Min s32Max (s.fb.read (4 + off.toNat)).toNat s
        (readScalar Config.device Q s) := by
    simpa [hrange] using readScalar_byte hv hl
  rw [exec_accessor hQ]
  refine ⟨fun hv => ?_, fun hv => ⟨_, rfl, hread hv hmi⟩, fun hv => ⟨_, rfl, hread hv hsu⟩⟩
  have hscalar := (hread hv hded).reportsScalar_of_le (Config.device_admissible.lenPositive ded)
  obtain ⟨hlo, hhi⟩ := toNat_byte_bounds (s.fb.read 4)
  rw [← ofInt_toNat_byte]
  exact congrArg _ (hscalar.eq_setRes hlo hhi hlo hhi)

/-- Settles O45: register 3 has one row, a byte of the summary. -/
theorem failStatus3Result : Obligations.FailStatus3Result := fun _ hv => ⟨_, rfl, readScalar_byte hv rfl⟩

/-! ## Module voltage -/

theorem cellSum_eq_sum (m : Memory) (a : Nat) : cellSum m a = ((List.range 8).map (cellAt m a)).sum := by
  simp [cellSum, List.range_succ, Nat.add_assoc]

/-- Settles O46: on `MI` the row is the cell window, whose shortage names the cell voltages, on `SU` an unsigned word. -/
theorem moduleVoltageResult : Obligations.ModuleVoltageResult := by
  intro s cell
  refine ⟨fun hv => ⟨_, rfl, ?_⟩, fun hv => ⟨_, rfl, readScalar_unsigned hv rfl (one_mul _)⟩⟩
  have hcells : cell = cellAt s.fb (4 + Config.device.mi.cellV.toNat) :=
    funext fun i => (cellAt_payload s.fb _ i).symm
  rw [hcells, ← cellSum_eq_sum]
  exact readScalar_reportsWindow hv rfl (evalSource_cells ..)

end Sys2Proof.Machine
end

section
/-! PROOFS. The statements of 43_fault_decoder.md: the state of one bit of a raw byte (R202), of one fault (R203) and of all
24 faults (R204) of a valid frame. Two facts carry them: a fault state's code is the number the statements give for the
bit (R205), and `TryRegister` finds the byte that the frame carries (R206). -/

namespace Sys2Proof

/-! ## Registers and faults -/

/-- The number of a fault-status register, by which `carriedRegister` names it. -/
def FaultRegister.number : FaultRegister → Nat
  | .one => 1
  | .two => 2
  | .three => 3

theorem FaultId.fid_lt_twentyFour (f : FaultId) : f.fid < 24 := by cases f <;> decide

end Sys2Proof

namespace Sys2Proof.Machine

/-! ## The state of a bit -/

/-- The byte divided by the bit's value is odd exactly where the bit is set (43_fault_decoder.md R205). -/
theorem toNat_code_ofByte? (x : Option Byte) (b : Nat) : (FaultState.ofByte? x b).code.toNat = bitState x b := by
  cases x with
  | none => rfl
  | some x =>
    have hbit : x.getLsbD b = decide (x.toNat / 2 ^ b % 2 = 1) := Nat.testBit_eq_decide_div_mod_eq
    simp only [FaultState.ofByte?, FaultState.ofBit, bitState, hbit, decide_eq_true_eq]
    split <;> rfl

theorem code_ofByte?_eq_ofNat (x : Option Byte) (b : Nat) :
    (FaultState.ofByte? x b).code = BitVec.ofNat 2 (bitState x b) := by
  rw [← toNat_code_ofByte?, BitVec.ofNat_toNat, BitVec.setWidth_eq]

/-- The code as `RVAL` holds it, zero-extended. -/
theorem setWidth_code_ofByte? (x : Option Byte) (b : Nat) :
    (FaultState.ofByte? x b).code.setWidth 32 = BitVec.ofNat 32 (bitState x b) := by
  rw [← toNat_code_ofByte?, BitVec.ofNat_toNat]

/-- Settles O47: the byte is given, so no frame is read. -/
theorem faultDecodeResult : Obligations.FaultDecodeResult := by
  intro s f x
  rw [← setWidth_code_ofByte?]
  rfl

/-! ## The register a frame carries -/

/-- The register of each of the 24 fault ids (43_fault_decoder.md R201). -/
theorem faultRegister_number {fid : Nat} (h : fid < 24) : (faultRegister fid).number = fid / 8 + 1 := by
  have hdiv : fid / 8 < 3 := by omega
  unfold faultRegister
  interval_cases fid / 8 <;> rfl

section
variable {cfg : Config} {c : Command} {r : FaultRegister}

/-- A register that is a byte of the payload is available where the window fits. -/
theorem tryRegister_of_byte {off : Byte} (hl : layout cfg (registerQuantity r) c = some (.byte off)) (m : Memory) :
    tryRegister cfg c m r =
      if off.toNat + 1 ≤ (cfg.len c).toNat then some (m.read (4 + off.toNat)) else none := by
  rw [tryRegister, extract_of_layout hl, evalSource_byte]
  by_cases hfit : off.toNat + 1 ≤ (cfg.len c).toNat
  · simp [hfit, Nat.not_lt.mpr hfit]
  · simp [hfit, Nat.lt_of_not_le hfit]

theorem tryRegister_of_no_source (hl : layout cfg (registerQuantity r) c = none) (m : Memory) :
    tryRegister cfg c m r = none := by
  rw [tryRegister, extract_of_no_source hl]

end

/-- `TryRegister` row by row of the layout table: every row of a register is a byte (43_fault_decoder.md R206). -/
theorem tryRegister_eq_carriedRegister (cfg : Config) (c : Command) (m : Memory) (r : FaultRegister) :
    tryRegister cfg c m r = carriedRegister cfg m r.number c := by
  cases r with
  | one =>
    cases c with
    | failStatus1 => exact tryRegister_of_byte (off := 0) rfl m
    | moduleInformation | summary => exact tryRegister_of_byte rfl m
    | _ => exact tryRegister_of_no_source rfl m
  | two =>
    cases c with
    | failStatus2 => exact tryRegister_of_byte (off := 0) rfl m
    | moduleInformation | summary => exact tryRegister_of_byte rfl m
    | _ => exact tryRegister_of_no_source rfl m
  | three =>
    cases c with
    | summary => exact tryRegister_of_byte rfl m
    | _ => exact tryRegister_of_no_source rfl m

/-- The state of a fault in a valid frame is that of its own bit of the register byte the frame carries. -/
theorem faultStateIn_eq (cfg : Config) (c : Command) (m : Memory) {fid : Nat} (h : fid < 24) :
    faultStateIn cfg c m fid = FaultState.ofByte? (carriedRegister cfg m (fid / 8 + 1) c) (fid % 8) := by
  rw [faultStateIn, tryRegister_eq_carriedRegister, faultRegister_number h, faultBit]

/-! ## The operations on a valid frame -/

section
variable {s : State} {c : Command} (hv : ValidFrame Config.device s c)
include hv

theorem exec_faultByName_of_valid (f : FaultId) :
    exec (.faultByName f) s = .next (s.setRes
      { Results.cleared with rval := (faultStateIn Config.device c s.fb f.fid).code.setWidth 32 }) := by
  simp only [exec, execFaultByName, runFaultByName, activeCommand_of_valid hv, complete_eq]
  rfl

theorem exec_faultIter_of_valid :
    exec .faultIter s = .next (s.setRes
      { Results.cleared with
        rfault := Vector.ofFn fun i : Fin 24 => (faultStateIn Config.device c s.fb i.val).code }) := by
  simp only [exec, execFaultIter, runFaultIter, activeCommand_of_valid hv, complete_eq]
  rfl

end

/-- Settles O48: the fault's register and bit are its id divided by 8. -/
theorem faultByNameResult : Obligations.FaultByNameResult := by
  intro s c f hv
  rw [exec_faultByName_of_valid hv, faultStateIn_eq _ _ _ f.fid_lt_twentyFour, setWidth_code_ofByte?]

/-- Settles O49: both operations report `faultStateIn`, the one in 2 bits and the other zero-extended. -/
theorem faultIterResult : Obligations.FaultIterResult := by
  intro s c hv
  refine ⟨_, exec_faultIter_of_valid hv, rfl, rfl, fun i => ?_, fun f _ => ⟨_, exec_faultByName_of_valid hv f, ?_⟩⟩
  · simp only [State.setRes_res, Fin.getElem_fin, Vector.getElem_ofFn]
    rw [faultStateIn_eq _ _ _ i.isLt, code_ofByte?_eq_ofNat]
  · simp only [State.setRes_res, Vector.getElem_ofFn]
    exact BitVec.toNat_setWidth_of_le (by decide)

end Sys2Proof.Machine
end

section
/-! PROOFS. The statements of 60_exceptions.md: that an operation which raises changes no state (R221), when `NO_FRAME`
is raised (R222), the statuses an operation can have (R220), the host's `RECEIVE` (R229), the transport's `SEND` and
`OPEN` (R240, R242), and that host and transport keep the machine running (R225). The statements about statuses rest on
one law, `exec_completes`: the status of each operation, read once. -/

namespace Sys2Proof.Machine

/-! ## The host's `RECEIVE` -/

/-- A `RECEIVE` of the host is turned away at step 2 of the decode procedure or at step 3 (30_encoding.md R64). -/
theorem decode_of_host_receive {r : Request} (hop : Op.receive.code = opField r.word) (hagent : r.agent = .host) :
    decode r = .error .illegalOp := by
  by_cases hzero : r.word &&& Op.receive.format.mustBeZero = 0#32
  · simp only [decode, Op.ofCode_eq_some_iff.mpr hop, hzero, hagent, ne_eq, not_true_eq_false, if_false, and_self,
      if_true]
  · exact decode_of_mustBeZero_set hop hzero

/-- Settles O8: the OP value is that of `RECEIVE`, and the request port turns the request away. -/
theorem hostReceive : Obligations.HostReceive := by
  intro s r rest hin hagent hop
  have hcode : Op.receive.code = opField r.word := BitVec.eq_of_toNat_eq (by rw [opField_toNat, hop]; rfl)
  exact step_of_illegalOp hin (decode_of_host_receive hcode hagent)

/-! ## The transport's `SEND` and `OPEN` -/

section
variable {s : State} (htxv : s.txv = true) (hidle : s.transport.awaiting = false)
include htxv hidle

theorem transportSend_true : transportSend true s = .next (s.setTransport
    { s.transport with status := Status.ok.code, awaiting := true, sent := s.txb :: s.transport.sent }) := by
  simp [transportSend, htxv, hidle]

theorem transportSend_false : transportSend false s = .next (s.setTransport
    { s.transport with status := Status.sendFailed.code }) := by
  simp [transportSend, htxv, hidle]

/-- A built frame is sent, or fails to be, while no reply is awaited (70_reset_and_hazards.md R255, R256). -/
theorem transportSend_answers (ok : Bool) : ∃ t, transportSend ok s = .next t := by
  cases ok
  · exact ⟨_, transportSend_false htxv hidle⟩
  · exact ⟨_, transportSend_true htxv hidle⟩

end

/-- Settles O12, for the `SEND` that succeeds and for the one that fails: either changes what is kept of the transport
alone. -/
theorem sendReadsTransmitBuffer : Obligations.SendReadsTransmitBuffer := by
  intro s ok rest hin htxv hidle
  rw [step_of_inputs hin]
  cases ok with
  | true =>
    exact ⟨_, transportSend_true htxv hidle, rfl, rfl, rfl, rfl, rfl, rfl, rfl, rfl, rfl, fun _ => ⟨rfl, rfl⟩, nofun⟩
  | false =>
    exact ⟨_, transportSend_false htxv hidle, rfl, rfl, rfl, rfl, rfl, rfl, rfl, rfl, hidle, nofun, fun _ => ⟨rfl, rfl⟩⟩

/-- Settles O14: the outcome of the `OPEN` is kept with the transport. -/
theorem openTouchesNoBlockState : Obligations.OpenTouchesNoBlockState := fun _ _ _ hin =>
  ⟨_, step_of_inputs hin, rfl, rfl, rfl, rfl, rfl, rfl, rfl, rfl, rfl⟩

/-! ## Inputs of a host and transport that keep their obligations -/

theorem acceptRequest_of_arriving {r : Request} {s : State} {i i' : Instr} (hdecode : decode r = .ok i)
    (harr : arriving Config.device s i = .ok i') : acceptRequest r s = exec i' s := by
  simp only [acceptRequest, hdecode, harr]

/-- Where host and transport keep their obligations, the buffer is for no other command than the one whose reply comes
(70_reset_and_hazards.md R252, R255). -/
theorem bufferForAnother_of_obeys {cfg : Config} {s : State} {r : Request} {stream : Stream}
    (hdecode : decode r = .ok (.receive stream)) (h : Obeys cfg s (.request r)) : bufferForAnother cfg s = false := by
  cases stream with
  | bytes bs =>
    simp only [Obeys, hdecode] at h
    obtain ⟨-, -, hanswers⟩ := h
    exact bufferForAnother_of_answers hanswers
  | fail =>
    simp only [Obeys, hdecode] at h
    exact h.2

/-- So an operation is not stopped at the transport. -/
theorem arriving_of_obeys {s : State} {r : Request} {i : Instr} (hdecode : decode r = .ok i)
    (h : Obeys Config.device s (.request r)) : ∃ i', arriving Config.device s i = .ok i' := by
  rcases arriving_cases Config.device s i with harr | ⟨-, -, harr⟩ | ⟨hbuf, hop, -⟩
  · exact ⟨_, harr⟩
  · exact ⟨_, harr⟩
  · cases i <;> cases hop
    simp [bufferForAnother_of_obeys hdecode h] at hbuf

theorem acceptRequest_of_obeys {s : State} {r : Request} (h : Obeys Config.device s (.request r)) :
    ∃ t, acceptRequest r s = .next t := by
  cases hdecode : decode r with
  | ok i =>
    obtain ⟨i', harr⟩ := arriving_of_obeys hdecode h
    rw [acceptRequest_of_arriving hdecode harr]
    exact exec_answers i' s
  | error why =>
    simp only [Obeys, hdecode] at h
    obtain ⟨-, hmarked⟩ := h
    simp only [acceptRequest, hdecode]
    rcases rejectRequest_cases why s with ⟨hwhy, -⟩ | ⟨-, hr⟩ | ⟨-, hr⟩
    · exact absurd hwhy hmarked
    · exact ⟨_, hr⟩
    · exact ⟨_, hr⟩

/-- Settles O15, input by input. -/
theorem obeyedInputRuns : Obligations.ObeyedInputRuns := by
  intro s inp rest hin h
  rw [step_of_inputs hin]
  cases inp with
  | request r => exact acceptRequest_of_obeys h
  | transportSend ok =>
    obtain ⟨htxv, hidle, -⟩ := h
    exact transportSend_answers htxv hidle ok
  | transportOpen ok => exact ⟨_, rfl⟩
  | reset => exact ⟨_, rfl⟩

/-! ## Operations that raise -/

/-- An operation that raises leaves `EXP`, and leaves `FB` but for a failed `RECEIVE` (60_exceptions.md R221). -/
theorem Effect.frame_eq_of_raised {cfg : Config} {s t : State} {op : Op} (h : Effect cfg s op t)
    (hraised : t.res.rstatus ≠ 0x00#8) : t.exp = s.exp ∧ (t.res.rstatus ≠ 0x12#8 → t.fb = s.fb) := by
  cases h with
  | frameNew | fbWrite | receiveBytes => exact absurd rfl hraised
  | receiveFailed => exact ⟨rfl, absurd rfl⟩
  | _ => exact ⟨rfl, fun _ => rfl⟩

/-- `BUILD` does not raise: law R9 (d) meets its precondition (40_checksum_builder.md R105). -/
theorem runBuild_rstatus {cfg : Config} (hcfg : cfg.Admissible) (c : Command) (s : State) :
    (runBuild cfg c s).res.rstatus = 0x00#8 := by
  rw [runBuild_of_reqLen_eq_zero (hcfg.reqLenZero c)]
  rfl

/-- Settles O51: only `BUILD` writes `TXB` and `TXV`, and it does not raise. -/
theorem errorsChangeNothing : Obligations.ErrorsChangeNothing := by
  intro s t i h hraised
  have hop : i.op ≠ .build := by
    intro hbuild
    cases i <;> cases hbuild
    obtain rfl := Host.Outcome.next.inj h
    exact hraised (runBuild_rstatus Config.device_admissible _ s)
  obtain ⟨hexp, hfb⟩ := (exec_effect h).frame_eq_of_raised hraised
  obtain ⟨htxb, htxv⟩ := (exec_effect h).tx_eq hop
  exact ⟨hexp, htxb, htxv, hfb⟩

/-! ## The status of an operation -/

/-- An operation from `s` has completed in `t` with one of the status codes `codes`, and with `NO_FRAME` only where there
was no buffer (60_exceptions.md R220, R222). -/
structure CompletesWith (codes : List Byte) (s t : State) : Prop where
  listed : t.res.rstatus ∈ codes
  noFrame : t.res.rstatus = 0x05#8 → s.exp = none

section
variable {codes : List Byte} {s t : State}

theorem CompletesWith.mono {codes' : List Byte} (h : CompletesWith codes s t) (hsub : codes ⊆ codes') :
    CompletesWith codes' s t := ⟨hsub h.listed, h.noFrame⟩

theorem completesWith_of_rstatus {code : Byte} (ht : t.res.rstatus = code) (hmem : code ∈ codes) (hne : code ≠ 0x05#8) :
    CompletesWith codes s t := ⟨ht ▸ hmem, fun h => absurd (ht.symm.trans h) hne⟩

theorem completesWith_of_ok (ht : t.res.rstatus = 0x00#8) (hmem : 0x00#8 ∈ codes) : CompletesWith codes s t :=
  completesWith_of_rstatus ht hmem (by decide)

/-- An operation that raises `NO_FRAME` has found no buffer. -/
theorem completesWith_of_no_frame (he : s.exp = none) (ht : t.res.rstatus = 0x05#8) (hmem : 0x05#8 ∈ codes) :
    CompletesWith codes s t := ⟨ht ▸ hmem, fun _ => he⟩

end

section
variable {cfg : Config} {s : State}

theorem activeCommand_error_completes {e : Err} (h : activeCommand cfg s = .error e) :
    CompletesWith [0x01, 0x05] s (s.setRes e.results) := by
  rcases activeCommand_error h with ⟨he, rfl⟩ | ⟨c, rule, x, y, -, -, -, -, rfl⟩
  · exact completesWith_of_no_frame he rfl (by decide)
  · exact completesWith_of_rstatus (code := 0x01) rfl (by decide) (by decide)

/-! ### Extraction -/

/-- A source that is computed by a division (42_field_extractor.md R166, R167). -/
def Source.divides : Source → Bool
  | .absoluteSoc _ _ => true
  | .relativeSoc _ _ => true
  | _ => false

theorem evalSource_error_of_not_divides {c : Command} {m : Memory} {q : Quantity} {src : Source} {e : Err}
    (hsrc : src.divides = false) (h : evalSource cfg c m q src = .error e) : e.status = .dataBytesShortage := by
  cases src with
  | absoluteSoc | relativeSoc => cases hsrc
  | _ =>
    simp only [evalSource_cells, evalSource_signed, evalSource_unsigned, evalSource_temperature, evalSource_byte] at h
    split at h <;> cases h
    rfl

/-- Only the two states of charge are computed by a division. -/
theorem layout_divides {q : Quantity} {c : Command} {src : Source} (hl : layout cfg q c = some src)
    (hsrc : src.divides = true) : q = .absoluteSoc ∨ q = .relativeSoc := by
  cases q with
  | absoluteSoc => exact .inl rfl
  | relativeSoc => exact .inr rfl
  | _ => cases c <;> cases hl <;> cases hsrc

/-- The statuses of an extraction that raises: no source, a shortage, or a division by zero of a state of charge. -/
theorem extract_error_status {c : Command} {m : Memory} {q : Quantity} {e : Err} (h : extract cfg c m q = .error e) :
    e.status = .noAppropriateData ∨ e.status = .dataBytesShortage ∨
      (e.status = .divideByZero ∧ (q = .absoluteSoc ∨ q = .relativeSoc)) := by
  cases hl : layout cfg q c with
  | none =>
    rw [extract_of_no_source hl] at h
    cases h
    exact .inl rfl
  | some src =>
    rw [extract_of_layout hl] at h
    cases hsrc : src.divides with
    | false => exact .inr (.inl (evalSource_error_of_not_divides hsrc h))
    | true =>
      rcases evalSource_error h with ⟨q', need, rfl, -⟩ | rfl
      · exact .inr (.inl rfl)
      · exact .inr (.inr ⟨rfl, layout_divides hl hsrc⟩)

theorem cellWindow_error_status {c : Command} {e : Err} (h : cellWindow cfg c = .error e) :
    e.status = .noAppropriateData ∨ e.status = .dataBytesShortage := by
  cases hl : layout cfg .cellVoltages c with
  | none =>
    rw [cellWindow_of_no_source hl] at h
    cases h
    exact .inl rfl
  | some src =>
    rw [cellWindow_of_layout hl, window_eq] at h
    split at h <;> cases h
    exact .inr rfl

/-- What every accessor lists (42_field_extractor.md R160 to R172). -/
theorem accessorStatuses_subset (q : Quantity) : [0x00, 0x01, 0x02, 0x03, 0x05] ⊆ listedStatuses q.accessor := by
  cases q <;> decide

theorem extract_error_completes {c : Command} {m : Memory} {q : Quantity} {e : Err}
    (h : extract cfg c m q = .error e) : CompletesWith (listedStatuses q.accessor) s (s.setRes e.results) := by
  have hcode : (s.setRes e.results).res.rstatus = e.status.code := e.results_rstatus
  rcases extract_error_status h with hst | hst | ⟨hst, hq⟩ <;> rw [hst] at hcode
  · exact completesWith_of_rstatus hcode (accessorStatuses_subset q (by decide)) (by decide)
  · exact completesWith_of_rstatus hcode (accessorStatuses_subset q (by decide)) (by decide)
  · rcases hq with rfl | rfl <;> exact completesWith_of_rstatus hcode (by decide) (by decide)

/-! ### Each operation -/

theorem storeScalar_rstatus (q : Quantity) (v : Int) : (storeScalar cfg q v s).res.rstatus = 0x00#8 := by
  rcases storeScalar_cases cfg q v s with ⟨-, hs⟩ | ⟨-, hs⟩ <;> rw [hs] <;> rfl

theorem readScalar_completes (q : Quantity) : CompletesWith (listedStatuses q.accessor) s (readScalar cfg q s) := by
  unfold readScalar
  split
  next herr =>
    exact (activeCommand_error_completes herr).mono (List.Subset.trans (by decide) (accessorStatuses_subset q))
  · split
    next herr => exact extract_error_completes herr
    · exact completesWith_of_ok (storeScalar_rstatus q _) (accessorStatuses_subset q (by decide))

theorem runGetCellVoltages_completes :
    CompletesWith [0x00, 0x01, 0x02, 0x03, 0x05] s (runGetCellVoltages cfg s) := by
  unfold runGetCellVoltages
  split
  next herr => exact (activeCommand_error_completes herr).mono (by decide)
  · split
    next e herr =>
      have hcode : (s.setRes e.results).res.rstatus = e.status.code := e.results_rstatus
      rcases cellWindow_error_status herr with hst | hst <;> rw [hst] at hcode <;>
        exact completesWith_of_rstatus hcode (by decide) (by decide)
    · exact completesWith_of_ok rfl (by decide)

theorem runFbWrite_completes (index : Nat) (b : Byte) :
    CompletesWith [0x00, 0x05, 0x06] s (runFbWrite cfg index b s) := by
  unfold runFbWrite
  split
  next he => exact completesWith_of_no_frame he rfl (by decide)
  · split
    · exact completesWith_of_rstatus (code := 0x06) rfl (by decide) (by decide)
    · exact completesWith_of_ok rfl (by decide)

theorem runFbRead_completes (index : Nat) : CompletesWith [0x00, 0x05, 0x06] s (runFbRead cfg index s) := by
  unfold runFbRead
  split
  next he => exact completesWith_of_no_frame he rfl (by decide)
  · split
    · exact completesWith_of_rstatus (code := 0x06) rfl (by decide) (by decide)
    · exact completesWith_of_ok rfl (by decide)

theorem runReceive_completes (stream : Stream) : CompletesWith [0x00, 0x05, 0x12] s (runReceive cfg stream s) := by
  unfold runReceive
  split
  next he => exact completesWith_of_no_frame he rfl (by decide)
  · split
    · exact completesWith_of_rstatus (code := 0x12) rfl (by decide) (by decide)
    · split
      · exact completesWith_of_ok rfl (by decide)
      · exact completesWith_of_rstatus (code := 0x12) rfl (by decide) (by decide)

theorem runPayload_completes : CompletesWith [0x00, 0x05] s (runPayload cfg s) := by
  unfold runPayload
  split
  next he => exact completesWith_of_no_frame he rfl (by decide)
  · exact completesWith_of_ok rfl (by decide)

/-- An operation that only asks for the active command raises what validation raises, or completes with `OK`. -/
theorem runValidate_completes : CompletesWith [0x00, 0x01, 0x05] s (runValidate cfg s) := by
  unfold runValidate
  split
  next herr => exact (activeCommand_error_completes herr).mono (by decide)
  · exact completesWith_of_ok rfl (by decide)

theorem runFaultByName_completes (f : FaultId) : CompletesWith [0x00, 0x01, 0x05] s (runFaultByName cfg f s) := by
  unfold runFaultByName
  split
  next herr => exact (activeCommand_error_completes herr).mono (by decide)
  · exact completesWith_of_ok rfl (by decide)

theorem runFaultIter_completes : CompletesWith [0x00, 0x01, 0x05] s (runFaultIter cfg s) := by
  unfold runFaultIter
  split
  next herr => exact (activeCommand_error_completes herr).mono (by decide)
  · exact completesWith_of_ok rfl (by decide)

end

/-- An operation that answers has completed with a status its rule lists, and with `NO_FRAME` only without a buffer. -/
theorem exec_completes {s t : State} {i : Instr} (h : exec i s = .next t) : CompletesWith (listedStatuses i) s t := by
  cases i <;> obtain rfl := Host.Outcome.next.inj h
  case cksum | cmdInfo | frameNew | faultDecode =>
    exact completesWith_of_ok rfl List.mem_cons_self
  case build c =>
    exact completesWith_of_ok (runBuild_rstatus Config.device_admissible c s) List.mem_cons_self
  case fbWrite index b => exact runFbWrite_completes index b
  case fbRead index => exact runFbRead_completes index
  case receive stream => exact runReceive_completes stream
  case validate => exact runValidate_completes
  case payload => exact runPayload_completes
  case getCellVoltages => exact runGetCellVoltages_completes
  case faultByName f => exact runFaultByName_completes f
  case faultIter => exact runFaultIter_completes
  all_goals exact (readScalar_completes _).mono (List.Subset.refl _)

/-- Settles O53: every operation answers, and `exec_completes` says with which status. -/
theorem statusesAreListed : Obligations.StatusesAreListed := by
  intro s i
  obtain ⟨t, h⟩ := exec_answers i s
  exact ⟨t, h, (exec_completes h).listed⟩

/-! ## No frame -/

/-- Without a buffer an operation that needs one raises `NO_FRAME`; a `RECEIVE` ends the exchange as well
(60_exceptions.md R222; 70_reset_and_hazards.md R257). -/
theorem exec_of_no_frame {s : State} {i : Instr} (hi : needsFrame i) (he : s.exp = none) :
    exec i s = .next (s.setRes Err.noFrame.results) ∨
      exec i s = .next ((endExchange s).setRes Err.noFrame.results) := by
  rcases hi with hvalidates | ⟨index, b, rfl⟩ | ⟨index, rfl⟩ | ⟨stream, rfl⟩ | rfl | rfl
  · exact .inl (exec_of_validatesFirst_of_error hvalidates (activeCommand_of_none he))
  · exact .inl (by simp only [exec, execFbWrite, runFbWrite, he, raise_eq])
  · exact .inl (by simp only [exec, execFbRead, runFbRead, he, raise_eq])
  · exact .inr (by simp only [exec, execReceive, runReceive, he, raise_eq])
  · exact .inl (exec_validate_of_error (activeCommand_of_none he))
  · exact .inl (by simp only [exec, execPayload, runPayload, he, raise_eq])

/-- No operation gives up a buffer (10_state.md R21). -/
theorem Effect.exp_ne_none {cfg : Config} {s t : State} {op : Op} (h : Effect cfg s op t) (he : s.exp ≠ none) :
    t.exp ≠ none := by
  cases h with
  | frameNew => exact Option.some_ne_none _
  | _ => exact he

theorem exec_keeps_frame {s t : State} {i : Instr} (he : s.exp ≠ none) (h : exec i s = .next t) :
    t.exp ≠ none ∧ t.res.rstatus ≠ 0x05#8 :=
  ⟨(exec_effect h).exp_ne_none he, fun hst => he ((exec_completes h).noFrame hst)⟩

theorem acceptRequest_keeps_frame {r : Request} {s t : State} (he : s.exp ≠ none) (h : acceptRequest r s = .next t) :
    t.exp ≠ none ∧ t.res.rstatus ≠ 0x05#8 := by
  rcases acceptRequest_cases h with ⟨i, -, h⟩ | ⟨stream, -, -, h⟩ | ⟨why, -, h⟩
  · exact exec_keeps_frame he h
  · exact exec_keeps_frame he h
  · rcases rejectRequest_cases why s with ⟨-, hr⟩ | ⟨-, hr⟩ | ⟨-, hr⟩ <;> rw [hr] at h <;> cases h
    · exact ⟨he, show Status.illegalOp.code ≠ 0x05#8 by decide⟩
    · exact ⟨he, show Status.illegalOperand.code ≠ 0x05#8 by decide⟩

/-- An input other than reset keeps the buffer, and reports no `NO_FRAME` or reports nothing. -/
theorem acceptInput_keeps_frame {inp : Input} {s t : State} (hinp : inp ≠ .reset) (he : s.exp ≠ none)
    (h : acceptInput inp s = .next t) : t.exp ≠ none ∧ (t.res.rstatus ≠ 0x05#8 ∨ t.res = s.res) := by
  cases inp with
  | request r =>
    obtain ⟨hexp, hst⟩ := acceptRequest_keeps_frame he h
    exact ⟨hexp, .inl hst⟩
  | transportSend ok =>
    obtain ⟨-, -, rfl⟩ := transportSend_next h
    exact ⟨he, .inr rfl⟩
  | transportOpen ok =>
    obtain rfl := Host.Outcome.next.inj h
    exact ⟨he, .inr rfl⟩
  | reset => exact absurd rfl hinp

/-- Settles O36: `NO_FRAME` without a buffer, `FRAME_NEW` allocates one, and every operation and every input but reset
keeps it. -/
theorem noFrame : Obligations.NoFrame := by
  refine ⟨fun s i hi he => ?_, fun s c => ⟨_, exec_frameNew c s, rfl, rfl⟩, fun s t i => exec_keeps_frame,
    fun s t he hhead h => ?_⟩
  · rcases exec_of_no_frame hi he with h | h <;> exact ⟨_, h, rfl, he, rfl⟩
  · rcases step_next h with rfl | ⟨inp, rest, hin, h⟩
    · exact ⟨he, .inr rfl⟩
    · have hinp : inp ≠ .reset := by
        rintro rfl
        exact hhead (by rw [hin]; rfl)
      exact acceptInput_keeps_frame (s := s.setInputs rest) hinp he h

end Sys2Proof.Machine
end

section
/-! PROOFS. The statements of 70_reset_and_hazards.md: a `RECEIVE` from an unopened transport (R251), without a buffer
(R257) and into a buffer for another command (R255), and the transport's `SEND` before any `BUILD` (R256) and before the
reply has come (R255). A step on a `RECEIVE` is said once, for a buffer that fits the awaited reply and for one that
does not. -/

namespace Sys2Proof.Machine

/-! ## A step on a `RECEIVE` -/

section
variable {s : State} {r : Request} {rest : List Input} {stream : Stream} (hin : s.inputs = .request r :: rest)
  (hdecode : decode r = .ok (.receive stream))
include hin hdecode

/-- A reply to another command than the buffer's stops the run before the block sees it (93_implementation_defined.md
I13). -/
theorem step_receive_of_another (hbuf : bufferForAnother Config.device s = true) :
    step s = .fault .bufferForAnotherCommand := by
  have harr : arriving Config.device (s.setInputs rest) (.receive stream) = .error .bufferForAnotherCommand :=
    if_pos hbuf
  rw [step_of_inputs hin]
  simp only [acceptInput, acceptRequest, hdecode, harr]

/-- Otherwise the block receives what the transport delivers (70_reset_and_hazards.md R251). -/
theorem step_receive_of_not_another (hbuf : bufferForAnother Config.device s = false) :
    step s = exec (.receive (delivered s.transport.opened stream)) (s.setInputs rest) := by
  have harr : arriving Config.device (s.setInputs rest) (.receive stream) =
      .ok (.receive (delivered s.transport.opened stream)) := if_neg (by simp [hbuf])
  rw [step_of_inputs hin]
  exact acceptRequest_of_arriving hdecode harr

theorem step_receive_of_unopened (hclosed : s.transport.opened = false)
    (hbuf : bufferForAnother Config.device s = false) : step s = exec (.receive .fail) (s.setInputs rest) := by
  rw [step_receive_of_not_another hin hdecode hbuf, hclosed, delivered_unopened]

/-- The block itself stops no `RECEIVE`, so only a buffer for another command does. -/
theorem step_receive_stops_iff :
    step s = .fault .bufferForAnotherCommand ↔ bufferForAnother Config.device s = true := by
  refine ⟨fun hstop => ?_, step_receive_of_another hin hdecode⟩
  by_contra hbuf
  obtain ⟨t, hanswers⟩ := exec_answers (.receive (delivered s.transport.opened stream)) (s.setInputs rest)
  rw [step_receive_of_not_another hin hdecode (Bool.eq_false_of_not_eq_true hbuf), hanswers] at hstop
  cases hstop

end

/-- Settles O60: with a buffer, `bufferForAnother` is the stated condition. -/
theorem bufferForAnotherStops : Obligations.BufferForAnotherStops := by
  intro s r rest stream c hin hdecode he
  rw [step_receive_stops_iff hin hdecode, bufferForAnother_iff _ he]

/-! ## Without a buffer -/

theorem exec_receive_of_no_frame {s : State} (he : s.exp = none) (stream : Stream) :
    exec (.receive stream) s = .next ((endExchange s).setRes Err.noFrame.results) := by
  simp only [exec, execReceive, runReceive, he, raise_eq]

/-- Settles O27: the exchange ends, and the result file alone is written in the block. -/
theorem receiveWithoutBuffer : Obligations.ReceiveWithoutBuffer := fun _ stream he =>
  ⟨_, exec_receive_of_no_frame he stream, rfl, he, rfl, rfl, rfl, rfl, rfl⟩

/-! ## From an unopened transport -/

/-- Settles O59: an unopened transport delivers `FAIL`, which is `NO_FRAME` without a buffer and a failed receive, as in
O26, with one. -/
theorem unopenedReceiveFails : Obligations.UnopenedReceiveFails := by
  intro s r rest stream hin hdecode hclosed hbuf
  rw [step_receive_of_unopened hin hdecode hclosed hbuf]
  cases he : s.exp with
  | none =>
    rw [State.flen_of_none _ he]
    exact ⟨_, exec_receive_of_no_frame (s := s.setInputs rest) he .fail, he, rfl, rfl, rfl, rfl, rfl,
      fun _ => ⟨rfl, rfl⟩, absurd rfl⟩
  | some c =>
    rw [State.flen_of_exp _ he]
    obtain ⟨t, hexec, hres, hexp, hread, hdraws, htxb, htxv, hinputs, htransport⟩ :=
      receiveFailed (s.setInputs rest) c .fail he nofun
    exact ⟨t, hexec, hexp, htxb, htxv, hinputs, htransport, hdraws, nofun, fun _ => ⟨hres, hread⟩⟩

/-! ## A `SEND` that stops the run -/

theorem transportSend_of_unbuilt {s : State} (htxv : s.txv = false) (ok : Bool) :
    transportSend ok s = .fault .sendBeforeBuild := if_pos htxv

theorem transportSend_of_awaiting {s : State} (htxv : s.txv = true) (hawait : s.transport.awaiting = true) (ok : Bool) :
    transportSend ok s = .fault .interleavedExchange := by
  rw [transportSend, if_neg (by simp [htxv]), if_pos hawait]

/-- Settles O11: the transport looks at `TXV` first. -/
theorem sendBeforeBuild : Obligations.SendBeforeBuild := by
  intro s ok rest hin htxv
  rw [step_of_inputs hin]
  exact transportSend_of_unbuilt (s := s.setInputs rest) htxv ok

/-- Settles O13: a frame is built, so the awaited reply decides. -/
theorem interleavedSendStops : Obligations.InterleavedSendStops := by
  intro s ok rest hin htxv hawait
  rw [step_of_inputs hin]
  exact transportSend_of_awaiting (s := s.setInputs rest) htxv hawait ok

end Sys2Proof.Machine
end
